-- ==== Sys2Proof/Word.lean ====
section
/-! DEFINITION. The word types of AES128C: bytes, 32-bit words, register groups, blocks and the key schedule (00_scope.md R10 to R12). -/

namespace Sys2Proof

/-- An 8-bit unsigned value, bits 7 to 0 (R10). -/
abbrev Byte := BitVec 8

/-- A 32-bit unsigned value, bits 31 to 0 (R10). -/
abbrev Word := BitVec 32

/-- A byte offset within the 4 KiB register window, 0x000 to 0xFFF (R8, R70). -/
abbrev Offset := BitVec 12

/-- A register group X0..X3 of four 32-bit registers: KEY, DATA, IV or CHAIN (R12). -/
abbrev Group := Vector Word 4

/-- A block: the 16 bytes s[0..15] (R11). -/
abbrev Block := Vector Byte 16

/-- The key schedule: the 44 words w[0..43] (R35, R204). -/
abbrev Schedule := Vector Word 44

end Sys2Proof
end

