-- ==== Sys2Proof/Syntax.lean ====
section
/-! DEFINITION. The commands of AES128C: one constructor per row of spec/opcode_table.json, with the fields the row uses (30_encoding.md R101 to R103). -/

namespace Sys2Proof

/-- A command word that matches a row of the opcode map (R103). N is the 5-bit field cmd[12:8], A the byte cmd[23:16]
and B the byte cmd[31:24] (R102); every value of a field is expressible, legal or not (R104). -/
inductive Instr where
  | nop
  | keyexp
  | init
  | encEcb
  | decEcb
  | encCbc
  | decCbc
  | pad (n : BitVec 5)
  | unpad
  | subbytes
  | invsubbytes
  | shiftrows
  | invshiftrows
  | mixcolumns
  | invmixcolumns
  | addrk (n : BitVec 5)
  | gfmul (a b : Byte)
  | sbox (a : Byte)
  | invsbox (a : Byte)
  | rcon (n : BitVec 5)
  deriving DecidableEq, Repr

end Sys2Proof
end

