-- ==== Sys2Proof/WellFormed.lean ====
section
/-! DEFINITION. Which commands are legal (30_encoding.md R104), and the error kinds of a command (60_exceptions.md R321). -/

namespace Sys2Proof

/-- The command errors (R321). Each is reported in STATUS by the command's completion; none stops the machine (R320). -/
inductive CommandError where
  /-- code 1: KEYEXP with KEYLEN other than 16 (R322). -/
  | invalidKeyLength
  /-- code 2: UNPAD of a block whose last byte is no valid padding count (R323). -/
  | invalidPadding
  /-- code 3: PAD with N >= 16 (R324). -/
  | invalidBlockLength
  /-- code 4: a command that needs the key schedule while KEYV = 0 (R325). -/
  | noKey
  /-- code 5: a word that is no command, or an N out of range in ADDRK or RCON (R326). -/
  | illegalCommand
  deriving DecidableEq, Repr

/-- The range check of a used N field, R104 step 4: PAD needs N <= 15, ADDRK needs N <= 10, RCON needs 1 <= N <= 10.
"A and B take every value 0..255, so they have no range check." -/
def Instr.wf : Instr → Bool
  | .nop => true
  | .keyexp => true
  | .init => true
  | .encEcb => true
  | .decEcb => true
  | .encCbc => true
  | .decCbc => true
  | .pad n => decide (n.toNat ≤ 15)
  | .unpad => true
  | .subbytes => true
  | .invsubbytes => true
  | .shiftrows => true
  | .invshiftrows => true
  | .mixcolumns => true
  | .invmixcolumns => true
  | .addrk n => decide (n.toNat ≤ 10)
  | .gfmul _ _ => true
  | .sbox _ => true
  | .invsbox _ => true
  | .rcon n => decide (1 ≤ n.toNat) && decide (n.toNat ≤ 10)

/-- A **legal** command (R104): every operand is in the range its row gives. -/
abbrev WellFormed (i : Instr) : Prop := i.wf = true

end Sys2Proof
end

