-- ==== Sys2Proof/Decode.lean ====
section
/-! DEFINITION. The decoder and, after it, the encoder (30_encoding.md R101 to R108). -/

namespace Sys2Proof

/-! ## Fields of the command word (R101, R102) -/

/-- OP = cmd[7:0]. -/
def fieldOP (w : Word) : Byte := w.extractLsb' 0 8

/-- N = cmd[12:8]. -/
def fieldN (w : Word) : BitVec 5 := w.extractLsb' 8 5

/-- RSV = cmd[15:13]. -/
def fieldRSV (w : Word) : BitVec 3 := w.extractLsb' 13 3

/-- A = cmd[23:16]. -/
def fieldA (w : Word) : Byte := w.extractLsb' 16 8

/-- B = cmd[31:24]. -/
def fieldB (w : Word) : Byte := w.extractLsb' 24 8

/-! ## The opcode table (R103, R106) -/

/-- One row of R106's table of match and mask pairs; `build` makes the row's command of the word's fields N, A, B. -/
structure Row where
  mnemonic : String
  mtch : Word
  mask : Word
  build : BitVec 5 → Byte → Byte → Instr

/-- Control and cipher rows of R106. -/
def controlRows : List Row := [
  ⟨"NOP", 0x00000000, 0xFFFFFFFF, fun _ _ _ => .nop⟩,
  ⟨"KEYEXP", 0x00000001, 0xFFFFFFFF, fun _ _ _ => .keyexp⟩,
  ⟨"INIT", 0x00000002, 0xFFFFFFFF, fun _ _ _ => .init⟩,
  ⟨"ENC.ECB", 0x00000010, 0xFFFFFFFF, fun _ _ _ => .encEcb⟩,
  ⟨"DEC.ECB", 0x00000011, 0xFFFFFFFF, fun _ _ _ => .decEcb⟩,
  ⟨"ENC.CBC", 0x00000012, 0xFFFFFFFF, fun _ _ _ => .encCbc⟩,
  ⟨"DEC.CBC", 0x00000013, 0xFFFFFFFF, fun _ _ _ => .decCbc⟩]

/-- Padding and block-transform rows of R106. -/
def blockRows : List Row := [
  ⟨"PAD", 0x00000020, 0xFFFFE0FF, fun n _ _ => .pad n⟩,
  ⟨"UNPAD", 0x00000021, 0xFFFFFFFF, fun _ _ _ => .unpad⟩,
  ⟨"SUBBYTES", 0x00000030, 0xFFFFFFFF, fun _ _ _ => .subbytes⟩,
  ⟨"INVSUBBYTES", 0x00000031, 0xFFFFFFFF, fun _ _ _ => .invsubbytes⟩,
  ⟨"SHIFTROWS", 0x00000032, 0xFFFFFFFF, fun _ _ _ => .shiftrows⟩,
  ⟨"INVSHIFTROWS", 0x00000033, 0xFFFFFFFF, fun _ _ _ => .invshiftrows⟩,
  ⟨"MIXCOLUMNS", 0x00000034, 0xFFFFFFFF, fun _ _ _ => .mixcolumns⟩,
  ⟨"INVMIXCOLUMNS", 0x00000035, 0xFFFFFFFF, fun _ _ _ => .invmixcolumns⟩,
  ⟨"ADDRK", 0x00000036, 0xFFFFE0FF, fun n _ _ => .addrk n⟩]

/-- Primitive rows of R106. -/
def primitiveRows : List Row := [
  ⟨"GFMUL", 0x00000040, 0x0000FFFF, fun _ a b => .gfmul a b⟩,
  ⟨"SBOX", 0x00000041, 0xFF00FFFF, fun _ a _ => .sbox a⟩,
  ⟨"INVSBOX", 0x00000042, 0xFF00FFFF, fun _ a _ => .invsbox a⟩,
  ⟨"RCON", 0x00000043, 0xFFFFE0FF, fun n _ _ => .rcon n⟩]

/-- The 20 rows of R106, in the order of R103. -/
def rows : List Row := controlRows ++ blockRows ++ primitiveRows

/-- "a word decodes to row X iff (cmd & mask_X) == match_X" (R106). -/
def Row.fits (w : Word) (r : Row) : Bool := w &&& r.mask == r.mtch

/-- The command the row makes of the word. -/
def Row.instr (w : Word) (r : Row) : Instr := r.build (fieldN w) (fieldA w) (fieldB w)

/-- The decoder: steps 1 to 3 of R104 (assigned OP, RSV = 0, unused fields 0), written as R106's match and mask pairs and
total on every word. "A word matching no row is IllegalCommand." The range check of a used N, step 4 of R104, is made
by the meaning of PAD, ADDRK and RCON, which raises the same error (log 4): R111 says of PAD 16 that it "decodes as
PAD and raises InvalidBlockLength". -/
def decode (w : Word) : Except CommandError Instr :=
  match rows.find? (Row.fits w) with
  | some r => .ok (r.instr w)
  | none => .error .illegalCommand

/-- Step 4 of R104: the error of an N field out of its range, none for a legal command. -/
def rangeError : Instr → Option CommandError
  | .nop => none
  | .keyexp => none
  | .init => none
  | .encEcb => none
  | .decEcb => none
  | .encCbc => none
  | .decCbc => none
  | .pad n => if n.toNat ≤ 15 then none else some .invalidBlockLength
  | .unpad => none
  | .subbytes => none
  | .invsubbytes => none
  | .shiftrows => none
  | .invshiftrows => none
  | .mixcolumns => none
  | .invmixcolumns => none
  | .addrk n => if n.toNat ≤ 10 then none else some .illegalCommand
  | .gfmul _ _ => none
  | .sbox _ => none
  | .invsbox _ => none
  | .rcon n => if 1 ≤ n.toNat ∧ n.toNat ≤ 10 then none else some .illegalCommand

/-- R106's `decode(cmd)` whole: a legal command, or the error of the first check that fails (R104, R329 steps 1 to 4). -/
def decodeLegal (w : Word) : Except CommandError Instr :=
  match decode w with
  | .error e => .error e
  | .ok i =>
    match rangeError i with
    | some e => .error e
    | none => .ok i

/-! ## The encoder (R103, R108) -/

/-- `OP | N << 8 | A << 16 | B << 24` (R108); RSV is 0. -/
def encodeFields (op : Byte) (n : BitVec 5) (a b : Byte) : Word :=
  op.setWidth 32 ||| (n.setWidth 32 <<< 8) ||| (a.setWidth 32 <<< 16) ||| (b.setWidth 32 <<< 24)

/-- `enc(m ops)` (R108), with the OP values of R103. -/
def encode : Instr → Word
  | .nop => encodeFields 0x00 0 0 0
  | .keyexp => encodeFields 0x01 0 0 0
  | .init => encodeFields 0x02 0 0 0
  | .encEcb => encodeFields 0x10 0 0 0
  | .decEcb => encodeFields 0x11 0 0 0
  | .encCbc => encodeFields 0x12 0 0 0
  | .decCbc => encodeFields 0x13 0 0 0
  | .pad n => encodeFields 0x20 n 0 0
  | .unpad => encodeFields 0x21 0 0 0
  | .subbytes => encodeFields 0x30 0 0 0
  | .invsubbytes => encodeFields 0x31 0 0 0
  | .shiftrows => encodeFields 0x32 0 0 0
  | .invshiftrows => encodeFields 0x33 0 0 0
  | .mixcolumns => encodeFields 0x34 0 0 0
  | .invmixcolumns => encodeFields 0x35 0 0 0
  | .addrk n => encodeFields 0x36 n 0 0
  | .gfmul a b => encodeFields 0x40 0 a b
  | .sbox a => encodeFields 0x41 0 a 0
  | .invsbox a => encodeFields 0x42 0 a 0
  | .rcon n => encodeFields 0x43 n 0 0

/-! ## The table's words -/

/-- The command word of a table row given as `nbits` bits of `w`: a command is exactly one 32-bit word (R100), bit 0 the
table's bit 0, every bit above `nbits` zero. -/
def tableWord (nbits w : Nat) : Word := BitVec.ofNat 32 (w % 2 ^ nbits)

/-- The instruction the decoder reads from a table word; none where it refuses. -/
def decodeTableWord (nbits w : Nat) : Option Instr :=
  match decode (tableWord nbits w) with
  | .ok i => some i
  | .error _ => none

end Sys2Proof
end

