-- ==== Sys2Proof/Config.lean ====
section
/-! DEFINITION. What the platform fixes and the values the spec leaves open. None of the opaque constants has a body, so nothing can be proved of their values. -/

namespace Sys2Proof.Config

/-- The n-th unspecified word drawn (10_state.md R40, I2, I3): "A model draws it freely, with no law". A free value (log 7). -/
opaque freeWord : Nat → Word

/-- The n-th unspecified choice drawn, for a transaction cut short by reset (R361). A free value (log 11). -/
opaque freeBool : Nat → Bool

/-- The number of the 4 KiB frame of the bus at which the platform places the window (R9, I5). A free value (log 8). -/
opaque windowFrame : Nat

/-- P_BASE, "a 4 KiB-aligned platform address" (R9, R70, I5). -/
def pBase : Nat := 4096 * windowFrame

end Sys2Proof.Config
end

