-- ==== Sys2Proof/Machine/State.lean ====
section
/-! DEFINITION. The state of AES128C (10_state.md R20 to R39), what a host can do to it, and its reset state. -/

namespace Sys2Proof.Machine

/-! ## The host's transactions and the bus's answers -/

/-- One host bus transaction at a bus address (20_memory.md R74, R75). `size` is in bytes; every size is expressible, only 4 is
decoded (R76). The data of a write of another size changes nothing, so `v` stands for it whatever its width. -/
inductive Transaction where
  | read (addr size : Nat)
  | write (addr size : Nat) (v : Word)
  deriving DecidableEq, Repr

/-- What the bus answers (R74 to R76). -/
inductive Response where
  /-- `(ok, v)` of a read. -/
  | readOk (v : Word)
  /-- `ok` of a write. -/
  | writeOk
  /-- the bus error of a read; `v` is its unspecified read data. -/
  | readErr (v : Word)
  /-- the bus error of a write. -/
  | writeErr
  /-- the address is outside the window: "not routed to AES128C" (R76), which gives no answer. -/
  | notRouted
  deriving DecidableEq, Repr

/-- Who acts next (R6, R82, R143, R360). DESIGN CHOICE (log 1): the order in which the agents act is data. -/
inductive Event where
  /-- the host's next transaction. -/
  | host (t : Transaction)
  /-- the core's turn: its completion step, if a command is pending (R143). -/
  | core
  /-- the reset input is asserted, possibly with a transaction in progress (R360, R361). -/
  | assertReset (inProgress : Option Transaction)
  /-- the reset input is released (R360). -/
  | releaseReset
  deriving DecidableEq, Repr

/-! ## State -/

/-- STATUS (R24). Bits 7:5 and 31:12 are reserved, RAZ/WI, and hold nothing. -/
structure Status where
  /-- bit 0, BUSY. -/
  busy : Bool
  /-- bit 1, DONE, W1C. -/
  done : Bool
  /-- bit 2, ERR, W1C, sticky. -/
  err : Bool
  /-- bit 3, OVR, W1C, sticky. -/
  ovr : Bool
  /-- bit 4, KEYV. -/
  keyv : Bool
  /-- bits 11:8, ERRCODE: none is code 0; codes 6 to 15 are "Never produced" (R321, I14; log 15). -/
  errcode : Option CommandError
  deriving DecidableEq, Repr

/-- The state of AES128C, one field for each piece of state of R20, R37 and R360, and three of the model's own. -/
structure State where
  /-- CMD: the last accepted command word (R23). -/
  cmd : Word
  /-- STATUS (R24). -/
  status : Status
  /-- CTRL bit 0, IE (R25). Bits 31:1 are reserved. -/
  ie : Bool
  /-- KEYLEN bits 7:0, LEN (R26). -/
  keylen : Byte
  /-- RESULT bits 7:0 (R27). -/
  result : Byte
  /-- OUTLEN bits 4:0 (R28). -/
  outlen : BitVec 5
  /-- BLKCNT (R30). -/
  blkcnt : Word
  /-- KEY0..KEY3 (R31). -/
  key : Group
  /-- DATA0..DATA3 (R32). -/
  data : Group
  /-- IV0..IV3 (R33). -/
  iv : Group
  /-- CHAIN0..CHAIN3 (R34). -/
  chain : Group
  /-- RK: the physical contents of the key-schedule RAM (R35). -/
  rk : Schedule
  /-- pending: none, or the command word in execution (R37). -/
  pending : Option Word
  /-- the reset input is asserted (R360). -/
  inReset : Bool
  /-- the model's own: what the agents do next (log 1). -/
  agenda : List Event
  /-- the model's own: what the bus answered, newest first (log 18). -/
  responses : List Response
  /-- the model's own: how many free values were drawn (log 7). -/
  draws : Nat
  deriving DecidableEq, Repr

/-! ## Why a step can stop -/

/-- No fault exists: "None of them stops the core or makes it stuck. A model maps each onto an observable outcome, never a halt"
(R320). The type has no constructor, so no step can fault (log 17). -/
inductive Fault where
  deriving DecidableEq, Repr

/-- Why a step is refused. -/
inductive Refusal where
  /-- raised only by an arm of exec that has no meaning yet; none is left. Safe: nothing is claimed of what follows. -/
  | notModelled (mnemonic : String)
  /-- raised by the step when the host issues a transaction while reset is asserted: "A host must not issue one, and a model
  refuses any such transaction" (R360, I11), whatever the address (log 21). Safe: nothing is claimed of what follows. -/
  | transactionDuringReset
  deriving DecidableEq, Repr

/-! ## Reset -/

/-- Four registers at 0x00000000. -/
def zeroGroup : Group := #v[0, 0, 0, 0]

/-- STATUS 0x00000000 (R39). -/
def Status.reset : Status where
  busy := false
  done := false
  err := false
  ovr := false
  keyv := false
  errcode := none

/-- The machine right after reset: R39's values, the reset input released, nothing to do. RK's physical contents are unspecified
there; zero is the model's DESIGN CHOICE (log 5), never observable while KEYV = 0 (I12). The agenda is empty (log 13). -/
def State.reset : State where
  cmd := 0
  status := Status.reset
  ie := false
  keylen := 0
  result := 0
  outlen := 0
  blkcnt := 0
  key := zeroGroup
  data := zeroGroup
  iv := zeroGroup
  chain := zeroGroup
  rk := Vector.ofFn fun _ => 0
  pending := none
  inReset := false
  agenda := []
  responses := []
  draws := 0

end Sys2Proof.Machine
end

