-- ==== Sys2Proof/Machine/Flags.lean ====
section
/-! DEFINITION. STATUS: its word as it is read, and every change of its fields (10_state.md R24, R38; 40_command_execution.md R140, R147; 60_exceptions.md R321, R334). -/

namespace Sys2Proof.Machine

/-- The numeric code of an error (R321). -/
def errorCode : CommandError → BitVec 4
  | .invalidKeyLength => 1
  | .invalidPadding => 2
  | .invalidBlockLength => 3
  | .noKey => 4
  | .illegalCommand => 5

/-- ERRCODE as a number: 0 for a successful command (R321). -/
def errcodeBits : Option CommandError → BitVec 4
  | none => 0
  | some e => errorCode e

/-- One flag as a bit. -/
def flagBit (b : Bool) : BitVec 1 := BitVec.ofBool b

/-- STATUS as a 32-bit word (R24): bits 31:12 and 7:5 read 0, ERRCODE in 11:8, KEYV 4, OVR 3, ERR 2, DONE 1, BUSY 0. -/
def statusWord (st : Status) : Word :=
  (0 : BitVec 20) ++ errcodeBits st.errcode ++ (0 : BitVec 3) ++
    flagBit st.keyv ++ flagBit st.ovr ++ flagBit st.err ++ flagBit st.done ++ flagBit st.busy

/-- The issue of a command: BUSY <- 1, DONE <- 0; "ERR, OVR, ERRCODE, KEYV unchanged" (R140). -/
def Status.issued (st : Status) : Status := { st with busy := true, done := false }

/-- A completion with code `e`: BUSY <- 0, DONE <- 1, ERRCODE <- code, ERR <- 1 if the code is not 0; OVR and KEYV stay (R143, R147). -/
def Status.completed (st : Status) (e : Option CommandError) : Status :=
  { st with busy := false, done := true, errcode := e, err := st.err || e.isSome }

/-- A STATUS write of `v`: DONE, ERR and OVR are cleared where bit 1, 2, 3 of `v` is 1; nothing else changes (R24, R75). -/
def Status.cleared (st : Status) (v : Word) : Status :=
  { st with
    done := st.done && !v.getLsbD 1
    err := st.err && !v.getLsbD 2
    ovr := st.ovr && !v.getLsbD 3 }

/-- A protected write dropped while busy: OVR <- 1 (R88, R328). -/
def Status.overrun (st : Status) : Status := { st with ovr := true }

/-- The output wire `irq = CTRL.IE & STATUS.DONE` (R38, R334): combinational, with no storage of its own. -/
def irq (s : State) : Bool := s.ie && s.status.done

end Sys2Proof.Machine
end

