-- ==== Sys2Proof/Machine/Ops.lean ====
section
/-! DEFINITION. The operations every command and every transaction share: issue, completion with success or with an error, acknowledging an error, overrun, drawing a free value, reset. -/

namespace Sys2Proof.Machine

/-! ## Completion (40_command_execution.md R143 to R147) -/

/-- The end of every command, R143's last five lines: pending <- none and STATUS as R147 says. `e` is the code, none for 0. -/
def complete (e : Option CommandError) (s : State) : State :=
  { s with pending := none, status := s.status.completed e }

/-- `complete`: the command ends successfully with ERRCODE = 0 (R13, R146). `s` holds the writes of the command's rule. -/
def succeed (s : State) : Host.Outcome State Fault Refusal := .next (complete none s)

/-- `raise E`: the command ends with ERRCODE = code(E) and "has no other effect" (R13, R145). This is the machine's whole error
entry (60_exceptions.md R331): "no state is saved to a stack, no mode changes and no vector is taken"; CMD still holds the failed
word. -/
def raise (e : CommandError) (s : State) : Host.Outcome State Fault Refusal := .next (complete (some e) s)

/-- The machine's whole error return (R332): "There is no return instruction. The host acknowledges an error by writing 1 to
STATUS.ERR". It is the STATUS write of R75. -/
def acknowledge (v : Word) (s : State) : State := { s with status := s.status.cleared v }

/-- A command that needs the key schedule: NoKey while KEYV = 0, else the command goes on (60_exceptions.md R325). -/
def needKey (s : State) (run : Host.Outcome State Fault Refusal) : Host.Outcome State Fault Refusal :=
  if s.status.keyv then run else raise .noKey s

/-! ## Issue and overrun -/

/-- `issue(v)` (R140): CMD <- v, pending <- v, BUSY <- 1, DONE <- 0; nothing is decoded or checked. -/
def issue (v : Word) (s : State) : State :=
  { s with cmd := v, pending := some v, status := s.status.issued }

/-- A protected write dropped while busy (20_memory.md R88): only OVR changes. -/
def overrun (s : State) : State := { s with status := s.status.overrun }

/-! ## The block counter -/

/-- `sat_inc(x) = x + 1` if x < 0xFFFFFFFF, else 0xFFFFFFFF (45_block_cipher.md R266). -/
def satInc (x : Word) : Word := if x = 0xFFFFFFFF then 0xFFFFFFFF else x + 1

/-! ## Free values -/

/-- The next unspecified word (10_state.md R40; log 7). -/
def drawWord (s : State) : Word := Config.freeWord s.draws

/-- A state after `n` free values more were drawn. -/
def drew (n : Nat) (s : State) : State := { s with draws := s.draws + n }

/-! ## Answers -/

/-- The bus answers the host. -/
def respond (r : Response) (s : State) : State := { s with responses := r :: s.responses }

/-! ## Reset (70_reset_and_hazards.md R360) -/

/-- RK's physical contents after a reset: unspecified, each word drawn free (R39, I12; log 6). -/
def drawnSchedule (s : State) : Schedule := Vector.ofFn fun i : Fin 44 => Config.freeWord (s.draws + i.val)

/-- Reset is asserted: the pending command is discarded and every piece of state takes its reset value of R39. What the agents
do next, what the bus answered and the count of free values are no state of AES128C and stay. -/
def enterReset (s : State) : State :=
  { State.reset with
    rk := drawnSchedule s
    inReset := true
    agenda := s.agenda
    responses := s.responses
    draws := s.draws + 44 }

/-- Reset is released: "AES128C accepts transactions at once" (R360). -/
def leaveReset (s : State) : State := { s with inReset := false }

end Sys2Proof.Machine
end

