-- ==== Sys2Proof/Machine/Bus.lean ====
section
/-! DEFINITION. The register window and the host's transactions (20_memory.md R70 to R89). -/

namespace Sys2Proof.Machine

/-! ## The register map (R72) -/

/-- The registers of the window, and the reserved offsets. -/
inductive Reg where
  | cmd
  | status
  | ctrl
  | keylen
  | result
  | outlen
  | blkcnt
  | id
  | key (n : Fin 4)
  | data (n : Fin 4)
  | iv (n : Fin 4)
  | chain (n : Fin 4)
  | rk (i : Fin 44)
  | reserved
  deriving DecidableEq, Repr

/-- The register at an aligned offset (R72). -/
def regAt (off : Offset) : Reg :=
  let o := off.toNat
  if o < 0x004 then .cmd
  else if o < 0x008 then .status
  else if o < 0x00C then .ctrl
  else if o < 0x010 then .keylen
  else if o < 0x014 then .result
  else if o < 0x018 then .outlen
  else if o < 0x01C then .blkcnt
  else if o < 0x020 then .id
  else if o < 0x030 then .key (Fin.ofNat 4 ((o - 0x020) / 4))
  else if o < 0x040 then .data (Fin.ofNat 4 ((o - 0x030) / 4))
  else if o < 0x050 then .iv (Fin.ofNat 4 ((o - 0x040) / 4))
  else if o < 0x060 then .chain (Fin.ofNat 4 ((o - 0x050) / 4))
  else if o < 0x100 then .reserved
  else if o < 0x1B0 then .rk (Fin.ofNat 44 ((o - 0x100) / 4))
  else .reserved

/-- ID always reads 0x41455307 (10_state.md R29). -/
def idValue : Word := 0x41455307

/-! ## Reads -/

/-- The defined value a register reads as: reserved bits and reserved offsets read 0 (R73), RK reads 0 while KEYV = 0 (R35). -/
def readReg (r : Reg) (s : State) : Word :=
  match r with
  | .cmd => s.cmd
  | .status => statusWord s.status
  | .ctrl => (flagBit s.ie).setWidth 32
  | .keylen => s.keylen.setWidth 32
  | .result => s.result.setWidth 32
  | .outlen => s.outlen.setWidth 32
  | .blkcnt => s.blkcnt
  | .id => idValue
  | .key n => s.key[n]
  | .data n => s.data[n]
  | .iv n => s.iv[n]
  | .chain n => s.chain[n]
  | .rk i => if s.status.keyv then s.rk[i] else 0
  | .reserved => 0

/-- The registers a read of which is unspecified while BUSY = 1: DATA0..3, CHAIN0..3, RESULT, OUTLEN, BLKCNT and RK[0..43]
(R89, 10_state.md R40). -/
def Reg.unspecifiedWhileBusy : Reg → Bool
  | .cmd => false
  | .status => false
  | .ctrl => false
  | .keylen => false
  | .result => true
  | .outlen => true
  | .blkcnt => true
  | .id => false
  | .key _ => false
  | .data _ => true
  | .iv _ => false
  | .chain _ => true
  | .rk _ => true
  | .reserved => false

/-- "Only aligned 32-bit accesses are decoded" (R76). -/
def decoded (off : Offset) (size : Nat) : Bool := size == 4 && off.toNat % 4 == 0

/-- `BusRead(off, size)` (R74). An unspecified value is drawn free, which counts the draw and changes no state of AES128C. -/
def busRead (off : Offset) (size : Nat) (s : State) : Response × State :=
  if decoded off size then
    if s.status.busy && (regAt off).unspecifiedWhileBusy then (.readOk (drawWord s), drew 1 s)
    else (.readOk (readReg (regAt off) s), s)
  else (.readErr (drawWord s), drew 1 s)

/-! ## Writes -/

/-- A write to a protected register: dropped with OVR while BUSY = 1, else stored (R75, R88). -/
def protectedWrite (s stored : State) : State := if s.status.busy then overrun s else stored

/-- A write of `v` to a register (R75). Read-only registers and reserved offsets: "no effect" (R73). -/
def writeReg (r : Reg) (v : Word) (s : State) : State :=
  match r with
  | .cmd => protectedWrite s (issue v s)
  | .status => acknowledge v s
  | .ctrl => { s with ie := v.getLsbD 0 }
  | .keylen => protectedWrite s { s with keylen := v.setWidth 8 }
  | .result => s
  | .outlen => s
  | .blkcnt => s
  | .id => s
  | .key n => protectedWrite s { s with key := s.key.set n v }
  | .data n => protectedWrite s { s with data := s.data.set n v }
  | .iv n => protectedWrite s { s with iv := s.iv.set n v }
  | .chain _ => s
  | .rk _ => s
  | .reserved => s

/-- `BusWrite(off, size, v)` (R75): a bus error changes no state (R76, R327). -/
def busWrite (off : Offset) (size : Nat) (v : Word) (s : State) : Response × State :=
  if decoded off size then (.writeOk, writeReg (regAt off) v s) else (.writeErr, s)

/-! ## Routing -/

/-- The offset of a bus address in the window at P_BASE; none where it is not routed to AES128C (R70, R76; log 8). -/
def route (addr : Nat) : Option Offset :=
  if addr / 4096 = Config.windowFrame then some (BitVec.ofNat 12 (addr % 4096)) else none

/-- One host transaction: its response and the state after it. An address outside the window does not reach AES128C, which gives
no answer and changes nothing. -/
def access (t : Transaction) (s : State) : Response × State :=
  match t with
  | .read addr size =>
    match route addr with
    | some off => busRead off size s
    | none => (.notRouted, s)
  | .write addr size v =>
    match route addr with
    | some off => busWrite off size v s
    | none => (.notRouted, s)

/-- One host transaction with its answer on the bus. -/
def transact (t : Transaction) (s : State) : State :=
  let (r, s') := access t s
  respond r s'

/-- A transaction in progress when reset is asserted (R361): whether it took effect is drawn free, and so is its response, ok or the bus
error, with any read data (log 11). Reset comes after it, "since reset overwrites every register". -/
def cutShort (t : Transaction) (s : State) : State :=
  let took := Config.freeBool s.draws
  let ok := Config.freeBool (s.draws + 1)
  let v := Config.freeWord (s.draws + 2)
  let r : Response :=
    match t with
    | .read addr _ => if (route addr).isNone then .notRouted else if ok then .readOk v else .readErr v
    | .write addr _ _ => if (route addr).isNone then .notRouted else if ok then .writeOk else .writeErr
  let s' := if took then (access t s).2 else s
  respond r { s' with draws := s.draws + 3 }

end Sys2Proof.Machine
end

