-- ==== Sys2Proof/Machine/Field.lean ====
section
/-! DEFINITION. Field arithmetic: xtime, gmul and GFMUL (41_field_arithmetic.md R160 to R164). -/

namespace Sys2Proof.Machine

/-- `xtime(b)` (R160): the 9-bit shift, reduced by 0x11B where b[7] = 1. -/
def xtime (b : Byte) : Byte :=
  let t : BitVec 9 := b.setWidth 9 <<< 1
  (if b.getLsbD 7 then t ^^^ 0x11B else t).setWidth 8

/-- `n` turns of R161's loop from bit i on: `if b[i] == 1: p <- p ^ t; t <- xtime(t)`. -/
def gmulLoop (b : Byte) : Nat → Nat → Byte → Byte → Byte
  | 0, _, _, p => p
  | n + 1, i, t, p => gmulLoop b n (i + 1) (xtime t) (if b.getLsbD i then p ^^^ t else p)

/-- `gmul(a, b)` (R161): `p <- 0x00; t <- a; for i in 0..7`. -/
def gmul (a b : Byte) : Byte := gmulLoop b 8 0 a 0

/-- GFMUL a, b (R164). -/
def execGfmul (a b : Byte) (s : State) : Host.Outcome State Fault Refusal :=
  succeed { s with result := gmul a b }

end Sys2Proof.Machine
end

