-- ==== Sys2Proof/Machine/Operands.lean ====
section
/-! DEFINITION. Register groups as blocks, and the bytes of words and blocks (00_scope.md R10 to R12, 20_memory.md R77). -/

namespace Sys2Proof.Machine

/-- Byte j of a word: `w[31-8j : 24-8j]`, so byte 0 is the most significant (R12, R77). -/
def wordByte (w : Word) (j : Fin 4) : Byte := w.extractLsb' (24 - 8 * j.val) 8

/-- The word `{b0, b1, b2, b3}` (R10, R12). -/
def wordOfBytes (b0 b1 b2 b3 : Byte) : Word := b0 ++ b1 ++ b2 ++ b3

/-- `blk(X)`: byte i of the group is byte `i mod 4` of register `i / 4` (R12, R77). -/
def blk (g : Group) : Block :=
  Vector.ofFn fun i : Fin 16 => wordByte (g[i.val / 4]'(by omega)) ⟨i.val % 4, by omega⟩

/-- The value `blk(X) <- b` writes to the group: register n takes `{b[4n], b[4n+1], b[4n+2], b[4n+3]}` (R12). -/
def ofBlock (b : Block) : Group :=
  Vector.ofFn fun n : Fin 4 =>
    wordOfBytes (b[4 * n.val]'(by omega)) (b[4 * n.val + 1]'(by omega))
      (b[4 * n.val + 2]'(by omega)) (b[4 * n.val + 3]'(by omega))

/-- The matrix element `s[r, c] = s[4c + r]` at row r and column c (R11). -/
def entry (s : Block) (r c : Fin 4) : Byte := s[4 * c.val + r.val]'(by omega)

/-- The block whose element at row r and column c is `f r c` (R11: byte i is at row `i mod 4`, column `i / 4`). -/
def blockOf (f : Fin 4 → Fin 4 → Byte) : Block :=
  Vector.ofFn fun i : Fin 16 => f ⟨i.val % 4, by omega⟩ ⟨i.val / 4, by omega⟩

/-- The block whose byte i is `f s[i]`: each of the 16 byte lanes is independent (R230). -/
def mapBytes (f : Byte → Byte) (s : Block) : Block := Vector.ofFn fun i : Fin 16 => f s[i]

/-- `^` on blocks is byte-wise XOR (R284). -/
def xorBlock (a b : Block) : Block := Vector.ofFn fun i : Fin 16 => a[i] ^^^ b[i]

end Sys2Proof.Machine
end

