-- ==== Sys2Proof/Machine/Substitution.lean ====
section
/-! DEFINITION. The S-box ROMs, SBOX and INVSBOX (42_substitution.md R180 to R185, 10_state.md R36). -/

namespace Sys2Proof.Machine

/-- The forward table of R180, one row of the table a line: row b[7:4], whose 16 bytes stand in the order x0, x1, ..., xF. -/
def sboxRows : Vector (BitVec 128) 16 := #v[
  0x637C777BF26B6FC53001672BFED7AB76,
  0xCA82C97DFA5947F0ADD4A2AF9CA472C0,
  0xB7FD9326363FF7CC34A5E5F171D83115,
  0x04C723C31896059A071280E2EB27B275,
  0x09832C1A1B6E5AA0523BD6B329E32F84,
  0x53D100ED20FCB15B6ACBBE394A4C58CF,
  0xD0EFAAFB434D338545F9027F503C9FA8,
  0x51A3408F929D38F5BCB6DA2110FFF3D2,
  0xCD0C13EC5F974417C4A77E3D645D1973,
  0x60814FDC222A908846EEB814DE5E0BDB,
  0xE0323A0A4906245CC2D3AC629195E479,
  0xE7C8376D8DD54EA96C56F4EA657AAE08,
  0xBA78252E1CA6B4C6E8DD741F4BBD8B8A,
  0x703EB5664803F60E613557B986C11D9E,
  0xE1F8981169D98E949B1E87E9CE5528DF,
  0x8CA1890DBFE6426841992D0FB054BB16]

/-- The inverse table of R181, in the same layout. -/
def invSboxRows : Vector (BitVec 128) 16 := #v[
  0x52096AD53036A538BF40A39E81F3D7FB,
  0x7CE339829B2FFF87348E4344C4DEE9CB,
  0x547B9432A6C2233DEE4C950B42FAC34E,
  0x082EA16628D924B2765BA2496D8BD125,
  0x72F8F66486689816D4A45CCC5D65B692,
  0x6C704850FDEDB9DA5E154657A78D9D84,
  0x90D8AB008CBCD30AF7E45805B8B34506,
  0xD02C1E8FCA3F0F02C1AFBD0301138A6B,
  0x3A9111414F67DCEA97F2CFCEF0B4E673,
  0x96AC7422E7AD3585E2F937E81C75DF6E,
  0x47F11A711D29C5896FB7620EAA18BE1B,
  0xFC563E4BC6D279209ADBC0FE78CD5AF4,
  0x1FDDA8338807C731B11210592780EC5F,
  0x60517FA919B54A0D2DE57A9F93C99CEF,
  0xA0E03B4DAE2AF5B0C8EBBB3C83539961,
  0x172B047EBA77D626E169146355210C7D]

/-- Entry b of a table: row b[7:4], column b[3:0] (R180). -/
def tableEntry (rows : Vector (BitVec 128) 16) (b : Byte) : Byte :=
  (rows[(b.extractLsb' 4 4).toNat]'(b.extractLsb' 4 4).isLt).extractLsb' (120 - 8 * (b.extractLsb' 0 4).toNat) 8

/-- `Sbox(b)` (R180). -/
def sbox (b : Byte) : Byte := tableEntry sboxRows b

/-- `InvSbox(b)` (R181). -/
def invSbox (b : Byte) : Byte := tableEntry invSboxRows b

/-- SBOX a (R184). -/
def execSbox (a : Byte) (s : State) : Host.Outcome State Fault Refusal :=
  succeed { s with result := sbox a }

/-- INVSBOX a (R185). -/
def execInvsbox (a : Byte) (s : State) : Host.Outcome State Fault Refusal :=
  succeed { s with result := invSbox a }

end Sys2Proof.Machine
end

