-- ==== Sys2Proof/Machine/KeySchedule.lean ====
section
/-! DEFINITION. The key schedule: Rcon, RotWord, SubWord, KeyExpand, RoundKey, KEYEXP and RCON (43_key_schedule.md R200 to R210). -/

namespace Sys2Proof.Machine

/-- Rcon(1)..Rcon(10) (R200). -/
def rconTable : Vector Byte 10 := #v[0x01, 0x02, 0x04, 0x08, 0x10, 0x20, 0x40, 0x80, 0x1B, 0x36]

/-- `Rcon(j)` for j = 1..10 (R200). "Rcon(0) and Rcon(j) for j > 10 do not exist. No rule reads them"; nor does the model. -/
def rcon (j : Nat) : Byte := rconTable[j - 1]?.getD 0

/-- `RotWord(w) = {w[23:0], w[31:24]}` (R201). -/
def rotWord (w : Word) : Word := w.extractLsb' 0 24 ++ w.extractLsb' 24 8

/-- `SubWord(w)`: Sbox on each byte (R202). -/
def subWord (w : Word) : Word :=
  wordOfBytes (sbox (wordByte w 0)) (sbox (wordByte w 1)) (sbox (wordByte w 2)) (sbox (wordByte w 3))

/-- The word that is XORed with w[i-4] to give w[i], from `prev` = w[i-1] (R204, R205). -/
def scheduleTerm (i : Nat) (prev : Word) : Word :=
  if i % 4 = 0 then subWord (rotWord prev) ^^^ ((rcon (i / 4)).setWidth 32 <<< 24) else prev

/-- The n words w[i], w[i+1], ... of R204's loop, from the four before them. -/
def expandFrom : Nat → Nat → Word → Word → Word → Word → List Word
  | 0, _, _, _, _, _ => []
  | n + 1, i, a, b, c, d => (a ^^^ scheduleTerm i d) :: expandFrom n (i + 1) b c d (a ^^^ scheduleTerm i d)

theorem length_expandFrom (n i : Nat) (a b c d : Word) : (expandFrom n i a b c d).length = n := by
  induction n generalizing i a b c d with
  | zero => rfl
  | succ n ih => simp [expandFrom, ih]

/-- The 44 words: w[0..3] and the 40 that follow, i = 4..43 (R204). -/
def expandWords (w0 w1 w2 w3 : Word) : Schedule :=
  ⟨(w0 :: w1 :: w2 :: w3 :: expandFrom 40 4 w0 w1 w2 w3).toArray, by simp [length_expandFrom]⟩

/-- Key word i of a 16-byte key: `{key[4i], key[4i+1], key[4i+2], key[4i+3]}` (R203). -/
def keyWord (key : Block) (i : Fin 4) : Word := (ofBlock key)[i]

/-- `KeyExpand(key)` (R204). -/
def keyExpand (key : Block) : Schedule :=
  expandWords (keyWord key 0) (keyWord key 1) (keyWord key 2) (keyWord key 3)

/-- `RoundKey(k)` for k = 0..10: the block of the words w[4k..4k+3] (R206). -/
def roundKey (rk : Schedule) (k : Fin 11) : Block :=
  blk (Vector.ofFn fun j : Fin 4 => rk[4 * k.val + j.val]'(by omega))

/-- KEYEXP (R209). InvalidKeyLength also clears KEYV, the one exception to R145. -/
def execKeyexp (s : State) : Host.Outcome State Fault Refusal :=
  if s.keylen = 16 then
    succeed { s with rk := keyExpand (blk s.key), status := { s.status with keyv := true } }
  else
    raise .invalidKeyLength { s with status := { s.status with keyv := false } }

/-- RCON n (R210), legal for 1 <= n <= 10 (R104). -/
def execRcon (n : BitVec 5) (s : State) : Host.Outcome State Fault Refusal :=
  if 1 ≤ n.toNat ∧ n.toNat ≤ 10 then succeed { s with result := rcon n.toNat } else raise .illegalCommand s

end Sys2Proof.Machine
end

