-- ==== Sys2Proof/Machine/BlockTransform.lean ====
section
/-! DEFINITION. The round operations on the State, blk(DATA), and their seven commands (44_block_transform.md R230 to R244). -/

namespace Sys2Proof.Machine

/-! ## Functions -/

/-- `SubBytes(s)` (R230). -/
def subBytes (s : Block) : Block := mapBytes sbox s

/-- `InvSubBytes(s)` (R231). -/
def invSubBytes (s : Block) : Block := mapBytes invSbox s

/-- `ShiftRows(s)` (R232): `out[r, c] <- s[r, (c + r) mod 4]`; addition on Fin 4 is mod 4. -/
def shiftRows (s : Block) : Block := blockOf fun r c => entry s r (c + r)

/-- `InvShiftRows(s)` (R233): `out[r, c] <- s[r, (c - r) mod 4]`; subtraction on Fin 4 is mod 4, taken in 0..3. -/
def invShiftRows (s : Block) : Block := blockOf fun r c => entry s r (c - r)

/-- `MixColumns(s)` (R234), row indices mod 4. -/
def mixColumns (s : Block) : Block :=
  blockOf fun r c =>
    gmul 2 (entry s r c) ^^^ gmul 3 (entry s (r + 1) c) ^^^ entry s (r + 2) c ^^^ entry s (r + 3) c

/-- `InvMixColumns(s)` (R235), row indices mod 4. -/
def invMixColumns (s : Block) : Block :=
  blockOf fun r c =>
    gmul 14 (entry s r c) ^^^ gmul 11 (entry s (r + 1) c) ^^^ gmul 13 (entry s (r + 2) c) ^^^
      gmul 9 (entry s (r + 3) c)

/-- `AddRoundKey(s, k)` (R236), the round keys read from RK. -/
def addRoundKey (rk : Schedule) (s : Block) (k : Fin 11) : Block := xorBlock s (roundKey rk k)

/-! ## Commands -/

/-- `blk(DATA) <- f(blk(DATA)); complete`, the shape of the six commands that need no key (R238 to R243). -/
def transformData (f : Block → Block) (s : State) : Host.Outcome State Fault Refusal :=
  succeed { s with data := ofBlock (f (blk s.data)) }

/-- SUBBYTES (R238). -/
def execSubbytes (s : State) : Host.Outcome State Fault Refusal := transformData subBytes s

/-- INVSUBBYTES (R239). -/
def execInvsubbytes (s : State) : Host.Outcome State Fault Refusal := transformData invSubBytes s

/-- SHIFTROWS (R240). -/
def execShiftrows (s : State) : Host.Outcome State Fault Refusal := transformData shiftRows s

/-- INVSHIFTROWS (R241). -/
def execInvshiftrows (s : State) : Host.Outcome State Fault Refusal := transformData invShiftRows s

/-- MIXCOLUMNS (R242). -/
def execMixcolumns (s : State) : Host.Outcome State Fault Refusal := transformData mixColumns s

/-- INVMIXCOLUMNS (R243). -/
def execInvmixcolumns (s : State) : Host.Outcome State Fault Refusal := transformData invMixColumns s

/-- ADDRK n (R244): IllegalCommand for n > 10, "checked before NoKey". -/
def execAddrk (n : BitVec 5) (s : State) : Host.Outcome State Fault Refusal :=
  if h : n.toNat ≤ 10 then
    needKey s (transformData (fun b => addRoundKey s.rk b ⟨n.toNat, by omega⟩) s)
  else raise .illegalCommand s

end Sys2Proof.Machine
end

