-- ==== Sys2Proof/Machine/BlockCipher.lean ====
section
/-! DEFINITION. The block cipher, ENC.ECB and DEC.ECB (45_block_cipher.md R260 to R266). -/

namespace Sys2Proof.Machine

/-- One full round r of the cipher: SubBytes, ShiftRows, MixColumns, AddRoundKey (R260). -/
def cipherRound (rk : Schedule) (s : Block) (r : Fin 11) : Block :=
  addRoundKey rk (mixColumns (shiftRows (subBytes s))) r

/-- `Cipher(b)` (R260): AddRoundKey 0, rounds 1..9, and the final round without MixColumns (R262). -/
def cipher (rk : Schedule) (b : Block) : Block :=
  let s := [1, 2, 3, 4, 5, 6, 7, 8, 9].foldl (cipherRound rk) (addRoundKey rk b 0)
  addRoundKey rk (shiftRows (subBytes s)) 10

/-- One full round r of the inverse cipher: AddRoundKey, InvMixColumns, InvShiftRows, InvSubBytes (R261). -/
def invCipherRound (rk : Schedule) (s : Block) (r : Fin 11) : Block :=
  invSubBytes (invShiftRows (invMixColumns (addRoundKey rk s r)))

/-- `InvCipher(b)` (R261). -/
def invCipher (rk : Schedule) (b : Block) : Block :=
  let s := invSubBytes (invShiftRows (addRoundKey rk b 10))
  addRoundKey rk ([9, 8, 7, 6, 5, 4, 3, 2, 1].foldl (invCipherRound rk) s) 0

/-- ENC.ECB (R264). -/
def execEncEcb (s : State) : Host.Outcome State Fault Refusal :=
  needKey s (succeed { s with data := ofBlock (cipher s.rk (blk s.data)), blkcnt := satInc s.blkcnt })

/-- DEC.ECB (R265). -/
def execDecEcb (s : State) : Host.Outcome State Fault Refusal :=
  needKey s (succeed { s with data := ofBlock (invCipher s.rk (blk s.data)), blkcnt := satInc s.blkcnt })

end Sys2Proof.Machine
end

