-- ==== Sys2Proof/Machine/Chaining.lean ====
section
/-! DEFINITION. CBC chaining and PKCS#7-style padding: INIT, ENC.CBC, DEC.CBC, PAD and UNPAD (46_chaining_padding.md R281 to R287). -/

namespace Sys2Proof.Machine

/-- INIT (R283). -/
def execInit (s : State) : Host.Outcome State Fault Refusal :=
  succeed { s with chain := ofBlock (blk s.iv), blkcnt := 0, outlen := 0 }

/-- ENC.CBC (R284). -/
def execEncCbc (s : State) : Host.Outcome State Fault Refusal :=
  let c := cipher s.rk (xorBlock (blk s.data) (blk s.chain))
  needKey s (succeed { s with data := ofBlock c, chain := ofBlock c, blkcnt := satInc s.blkcnt })

/-- DEC.CBC (R285): CHAIN takes the ciphertext block that was in DATA, "NOT the decrypted output". -/
def execDecCbc (s : State) : Host.Outcome State Fault Refusal :=
  let c := blk s.data
  needKey s (succeed { s with
    data := ofBlock (xorBlock (invCipher s.rk c) (blk s.chain))
    chain := ofBlock c
    blkcnt := satInc s.blkcnt })

/-- `Pad(b, n)` (R281): the first n bytes stay, the rest are p = 16 - n. -/
def padBlock (b : Block) (n : Nat) : Block :=
  Vector.ofFn fun i : Fin 16 => if i.val < n then b[i] else BitVec.ofNat 8 (16 - n)

/-- PAD n (R286): InvalidBlockLength for n >= 16. -/
def execPad (n : BitVec 5) (s : State) : Host.Outcome State Fault Refusal :=
  if n.toNat ≤ 15 then transformData (fun b => padBlock b n.toNat) s else raise .invalidBlockLength s

/-- `UnpadCheck(b, total)` (R282): the number of bytes to keep, none where invalid. "Only the final byte is checked." -/
def unpadCheck (b : Block) (total : Nat) : Option Nat :=
  let p := b[15].toNat
  if 1 ≤ p ∧ p ≤ 16 ∧ p ≤ total then some (16 - p) else none

/-- UNPAD (R287), with total length 16 * BLKCNT. -/
def execUnpad (s : State) : Host.Outcome State Fault Refusal :=
  match unpadCheck (blk s.data) (16 * s.blkcnt.toNat) with
  | none => raise .invalidPadding s
  | some keep => succeed { s with outlen := BitVec.ofNat 5 keep }

end Sys2Proof.Machine
end

