-- ==== Sys2Proof/Machine/Control.lean ====
section
/-! DEFINITION. NOP (40_command_execution.md R149). -/

namespace Sys2Proof.Machine

/-- NOP (R149): `complete`. -/
def execNop (s : State) : Host.Outcome State Fault Refusal := succeed s

end Sys2Proof.Machine
end

