-- ==== Sys2Proof/Machine/Dispatch.lean ====
section
/-! DEFINITION. exec: one arm for each command, a direct call of its meaning. -/

namespace Sys2Proof.Machine

/-- `run_m` of the command and the end of its completion (40_command_execution.md R143). -/
def exec (i : Instr) (s : State) : Host.Outcome State Fault Refusal :=
  match i with
  | .nop => Sys2Proof.Machine.execNop s
  | .keyexp => Sys2Proof.Machine.execKeyexp s
  | .init => Sys2Proof.Machine.execInit s
  | .encEcb => Sys2Proof.Machine.execEncEcb s
  | .decEcb => Sys2Proof.Machine.execDecEcb s
  | .encCbc => Sys2Proof.Machine.execEncCbc s
  | .decCbc => Sys2Proof.Machine.execDecCbc s
  | .pad n => Sys2Proof.Machine.execPad n s
  | .unpad => Sys2Proof.Machine.execUnpad s
  | .subbytes => Sys2Proof.Machine.execSubbytes s
  | .invsubbytes => Sys2Proof.Machine.execInvsubbytes s
  | .shiftrows => Sys2Proof.Machine.execShiftrows s
  | .invshiftrows => Sys2Proof.Machine.execInvshiftrows s
  | .mixcolumns => Sys2Proof.Machine.execMixcolumns s
  | .invmixcolumns => Sys2Proof.Machine.execInvmixcolumns s
  | .addrk n => Sys2Proof.Machine.execAddrk n s
  | .gfmul a b => Sys2Proof.Machine.execGfmul a b s
  | .sbox a => Sys2Proof.Machine.execSbox a s
  | .invsbox a => Sys2Proof.Machine.execInvsbox a s
  | .rcon n => Sys2Proof.Machine.execRcon n s

end Sys2Proof.Machine
end

