-- ==== Sys2Proof/Machine/Engine.lean ====
section
/-! DEFINITION. The core's completion step and whose turn it is (40_command_execution.md R143, 00_scope.md R6, 20_memory.md R82, 70_reset_and_hazards.md R360). -/

namespace Sys2Proof.Machine

/-- `complete()` of R143 for the pending word w: a word that does not decode raises its error, else the command runs. -/
def runCommand (w : Word) (s : State) : Host.Outcome State Fault Refusal :=
  match decode w with
  | .error e => raise e s
  | .ok i => exec i s

/-- The core's turn: its one step is "enabled exactly when `pending` is not none" (R143); else it has nothing to do (R6). -/
def coreTurn (s : State) : Host.Outcome State Fault Refusal :=
  match s.pending with
  | none => .next s
  | some w => runCommand w s

/-- A host transaction, refused while reset is asserted (R360). DESIGN CHOICE (log 21): refused then whatever its address, also where it
would not be routed to AES128C (R76). -/
def hostTurn (t : Transaction) (s : State) : Host.Outcome State Fault Refusal :=
  if s.inReset then .refused .transactionDuringReset else .next (transact t s)

/-- Reset is asserted, with a transaction in progress or none (R360, R361). No transaction can be in progress while reset is
already asserted; one is refused then, whatever its address (log 21). -/
def resetTurn (inProgress : Option Transaction) (s : State) : Host.Outcome State Fault Refusal :=
  match inProgress with
  | none => .next (enterReset s)
  | some t =>
    if s.inReset then .refused .transactionDuringReset else .next (enterReset (cutShort t s))

/-- One event. -/
def act (e : Event) (s : State) : Host.Outcome State Fault Refusal :=
  match e with
  | .host t => hostTurn t s
  | .core => coreTurn s
  | .assertReset inProgress => resetTurn inProgress s
  | .releaseReset => .next (leaveReset s)

/-- One step: the next event of the agenda; when the agenda is used up it is the core's turn, so that a pending command always
completes (70_reset_and_hazards.md R380; log 2). -/
def advance (s : State) : Host.Outcome State Fault Refusal :=
  match s.agenda with
  | [] => coreTurn s
  | e :: rest => act e { s with agenda := rest }

/-- A host's CMD write of the word w (R140) with the core's turn right after it. -/
def place (w : Word) (s : State) : State :=
  { issue w s with inReset := false, agenda := .core :: s.agenda }

end Sys2Proof.Machine
end

