-- ==== Sys2Proof/Machine/Step.lean ====
section
/-! DEFINITION. step, the one step of the machine, and how a command is placed where step runs it next. -/

namespace Sys2Proof.Machine

/-- One step of AES128C and its host. -/
def step (s : State) : Host.Outcome State Fault Refusal := advance s

/-- `s` with a table word issued as the pending command and the core's turn next, so that `step` runs exactly it. AES128C fetches
nothing (10_state.md R22); this stands for the host's CMD write of R140 (log 13). -/
def State.withFetchWord (s : State) (nbits w : Nat) : State := place (tableWord nbits w) s

end Sys2Proof.Machine
end

