-- ==== Sys2Proof/Safety.lean ====
section
/-! DEFINITION. What counts as a safe run, the machine's invariant, and the words the statements use for what a completion leaves. -/

namespace Sys2Proof.Machine

/-! ## A host that keeps the rules -/

/-- No transaction is issued, and none is in progress, while reset is asserted: "A host must not issue one" (R360). `inReset` is the
level of the reset input before the first event. -/
def legalAgenda : Bool → List Event → Bool
  | _, [] => true
  | inReset, .host _ :: rest => !inReset && legalAgenda inReset rest
  | inReset, .core :: rest => legalAgenda inReset rest
  | _, .assertReset none :: rest => legalAgenda true rest
  | inReset, .assertReset (some _) :: rest => !inReset && legalAgenda true rest
  | _, .releaseReset :: rest => legalAgenda false rest

/-- A state from which no step is refused: the agenda is legal. -/
def Safe (s : State) : Prop := legalAgenda s.inReset s.agenda = true

/-- It is the core's turn (R143): its event is next, or the agenda is used up. -/
def coreNext (s : State) : Prop := s.agenda = [] ∨ s.agenda.head? = some .core

/-- `s` after its next event is taken from the agenda. -/
def popped (s : State) : State := { s with agenda := s.agenda.tail }

/-! ## What a completion leaves (R143, R147) -/

/-- STATUS after a successful completion: BUSY 0, DONE 1, ERRCODE 0; ERR, OVR and KEYV as they were. -/
def okStatus (st : Status) : Status := { st with busy := false, done := true, errcode := none }

/-- STATUS after a failed completion: BUSY 0, DONE 1, ERR 1, ERRCODE the error; OVR and KEYV as they were. -/
def errStatus (e : CommandError) (st : Status) : Status :=
  { st with busy := false, done := true, err := true, errcode := some e }

/-- `s` after a successful completion that writes no register. -/
def succeeded (s : State) : State := { s with pending := none, status := okStatus s.status }

/-- `s` after a failed completion that changes nothing but STATUS (R145). -/
def failed (e : CommandError) (s : State) : State := { s with pending := none, status := errStatus e s.status }

/-! ## The invariant -/

/-- Every register the spec gives a reset value for holds it (R39). RK's contents are unspecified there. -/
def AtReset (s : State) : Prop :=
  s = { State.reset with
    rk := s.rk, inReset := s.inReset, agenda := s.agenda, responses := s.responses, draws := s.draws }

/-- What every step keeps. -/
structure Inv (s : State) : Prop where
  /-- `STATUS.BUSY = 1` exactly when pending is not none (R37). -/
  busy_pending : s.status.busy = s.pending.isSome
  /-- CMD holds the pending command (R23). -/
  pending_cmd : ∀ w, s.pending = some w → s.cmd = w
  /-- An issue clears DONE and only a completion sets it (R140, R147). -/
  busy_done : s.status.busy = true → s.status.done = false
  /-- KEYV is 1 when RK holds a valid key schedule (R24, R207). -/
  keyv_schedule : s.status.keyv = true → ∃ k : Block, s.rk = keyExpand k
  /-- OUTLEN is 0 to 15 (R28). -/
  outlen_le : s.outlen.toNat ≤ 15
  /-- While reset is asserted every register keeps its reset value (R360). -/
  in_reset : s.inReset = true → AtReset s

/-! ## Which registers a command writes (R149 to R287, "Registers a rule does not name are unchanged by it", R148) -/

/-- The commands that write DATA. -/
def writesData : Instr → Bool
  | .nop => false
  | .keyexp => false
  | .init => false
  | .encEcb => true
  | .decEcb => true
  | .encCbc => true
  | .decCbc => true
  | .pad _ => true
  | .unpad => false
  | .subbytes => true
  | .invsubbytes => true
  | .shiftrows => true
  | .invshiftrows => true
  | .mixcolumns => true
  | .invmixcolumns => true
  | .addrk _ => true
  | .gfmul _ _ => false
  | .sbox _ => false
  | .invsbox _ => false
  | .rcon _ => false

/-- The commands that write CHAIN: "Only INIT, ENC.CBC and DEC.CBC write it" (R34). -/
def writesChain (i : Instr) : Bool := i == .init || i == .encCbc || i == .decCbc

/-- The commands that write RESULT: GFMUL, SBOX, INVSBOX, RCON; "No other command writes RESULT" (R27). -/
def writesResult : Instr → Bool
  | .nop => false
  | .keyexp => false
  | .init => false
  | .encEcb => false
  | .decEcb => false
  | .encCbc => false
  | .decCbc => false
  | .pad _ => false
  | .unpad => false
  | .subbytes => false
  | .invsubbytes => false
  | .shiftrows => false
  | .invshiftrows => false
  | .mixcolumns => false
  | .invmixcolumns => false
  | .addrk _ => false
  | .gfmul _ _ => true
  | .sbox _ => true
  | .invsbox _ => true
  | .rcon _ => true

/-- The commands that write OUTLEN (R28). -/
def writesOutlen (i : Instr) : Bool := i == .init || i == .unpad

/-- The cipher commands, which count a block (R266). -/
def countsBlock (i : Instr) : Bool := i == .encEcb || i == .decEcb || i == .encCbc || i == .decCbc

end Sys2Proof.Machine
end

