-- ==== Sys2Proof/Certificates/Slice0/Obligations.lean ====
section
/-! DEFINITION. The statements about the model, and the reference functions they are stated with. -/

namespace Sys2Proof.Reference

open Sys2Proof.Machine

/-! ## Reference functions: the spec's own second descriptions, kept apart from the model's -/

/-- What R103's table says of an assigned OP: which fields it uses, and its command. -/
structure OpInfo where
  usesN : Bool
  usesA : Bool
  usesB : Bool
  build : BitVec 5 → Byte → Byte → Instr

/-- A row of R103 that uses no field. -/
def bare (i : Instr) : Option OpInfo := some ⟨false, false, false, fun _ _ _ => i⟩

/-- R103's table, by OP; none for an unassigned OP. -/
def opInfo (op : Byte) : Option OpInfo :=
  if op = 0x00 then bare .nop
  else if op = 0x01 then bare .keyexp
  else if op = 0x02 then bare .init
  else if op = 0x10 then bare .encEcb
  else if op = 0x11 then bare .decEcb
  else if op = 0x12 then bare .encCbc
  else if op = 0x13 then bare .decCbc
  else if op = 0x20 then some ⟨true, false, false, fun n _ _ => .pad n⟩
  else if op = 0x21 then bare .unpad
  else if op = 0x30 then bare .subbytes
  else if op = 0x31 then bare .invsubbytes
  else if op = 0x32 then bare .shiftrows
  else if op = 0x33 then bare .invshiftrows
  else if op = 0x34 then bare .mixcolumns
  else if op = 0x35 then bare .invmixcolumns
  else if op = 0x36 then some ⟨true, false, false, fun n _ _ => .addrk n⟩
  else if op = 0x40 then some ⟨false, true, true, fun _ a b => .gfmul a b⟩
  else if op = 0x41 then some ⟨false, true, false, fun _ a _ => .sbox a⟩
  else if op = 0x42 then some ⟨false, true, false, fun _ a _ => .invsbox a⟩
  else if op = 0x43 then some ⟨true, false, false, fun n _ _ => .rcon n⟩
  else none

/-- Steps 2 and 3 of R104: RSV and every field the opcode does not use are 0. -/
def unusedZero (o : OpInfo) (w : Word) : Prop :=
  fieldRSV w = 0 ∧ (o.usesN = false → fieldN w = 0) ∧ (o.usesA = false → fieldA w = 0) ∧
    (o.usesB = false → fieldB w = 0)

/-- R106's `decode(cmd)`, its checks in the order written. -/
def checkedDecode (w : Word) : Except CommandError Instr :=
  match opInfo (fieldOP w) with
  | none => .error .illegalCommand
  | some o =>
    if fieldRSV w ≠ 0 then .error .illegalCommand
    else if o.usesN = false ∧ fieldN w ≠ 0 then .error .illegalCommand
    else if o.usesA = false ∧ fieldA w ≠ 0 then .error .illegalCommand
    else if o.usesB = false ∧ fieldB w ≠ 0 then .error .illegalCommand
    else if fieldOP w = 0x36 ∧ (fieldN w).toNat > 10 then .error .illegalCommand
    else if fieldOP w = 0x43 ∧ ((fieldN w).toNat < 1 ∨ (fieldN w).toNat > 10) then .error .illegalCommand
    else if fieldOP w = 0x20 ∧ (fieldN w).toNat > 15 then .error .invalidBlockLength
    else .ok (o.build (fieldN w) (fieldA w) (fieldB w))

/-- R321's table of codes, as STATUS bits 11:8 hold them. -/
def errcodeValue : Option CommandError → Nat
  | none => 0
  | some .invalidKeyLength => 1
  | some .invalidPadding => 2
  | some .invalidBlockLength => 3
  | some .noKey => 4
  | some .illegalCommand => 5

/-- The product of two polynomials over GF(2) of degree below 8, before any reduction (R161): the XOR of `x << i` over the set bits i of y. -/
def polyMul (x y : BitVec 16) : BitVec 16 :=
  (List.range 9).foldl (fun p i => if y.getLsbD i then p ^^^ (x <<< i) else p) 0

/-- `r` is the product of a and b reduced modulo x^8 + x^4 + x^3 + x + 1 (R161): the polynomial product is q * 0x11B + r for a
quotient q of degree below 7. -/
def IsProduct (a b r : Byte) : Prop :=
  ∃ q : BitVec 7, polyMul (a.setWidth 16) (b.setWidth 16) = polyMul (q.setWidth 16) 0x11B ^^^ r.setWidth 16

/-- R183's `affine(x)`. -/
def affine (x : Byte) : Byte :=
  x ^^^ x.rotateLeft 1 ^^^ x.rotateLeft 2 ^^^ x.rotateLeft 3 ^^^ x.rotateLeft 4 ^^^ 0x63

/-- `b` is inv(a) of R183: inv(0) = 0, else the multiplicative inverse. -/
def IsInv (a b : Byte) : Prop := (a = 0 ∧ b = 0) ∨ gmul a b = 1

/-- Word-wise XOR of two register groups. -/
def xorGroup (g h : Group) : Group := Vector.ofFn fun n : Fin 4 => g[n] ^^^ h[n]

/-- Commands completed one after another. -/
def runAll : List Instr → State → Host.Outcome State Fault Refusal
  | [], s => .next s
  | i :: is, s =>
    match exec i s with
    | .next t => runAll is t
    | .fault f => .fault f
    | .refused r => .refused r

/-- The round commands of one encryption, by hand (R260, R349). -/
def encRounds : List Instr :=
  [.addrk 0] ++ ([1, 2, 3, 4, 5, 6, 7, 8, 9].flatMap fun r => [.subbytes, .shiftrows, .mixcolumns, .addrk r]) ++
    [.subbytes, .shiftrows, .addrk 10]

/-- The round commands of one decryption, by hand (R261). -/
def decRounds : List Instr :=
  [.addrk 10, .invshiftrows, .invsubbytes] ++
    ([9, 8, 7, 6, 5, 4, 3, 2, 1].flatMap fun r => [.addrk r, .invmixcolumns, .invshiftrows, .invsubbytes]) ++ [.addrk 0]

/-- The host's loop over blocks of R288 and R289: DATA <- block, one cipher command, DATA read back. -/
def cipherBlocks (i : Instr) : List Group → State → Option (List Group × State)
  | [], s => some ([], s)
  | g :: gs, s =>
    match exec i { s with data := g } with
    | .next t => (cipherBlocks i gs t).map fun (cs, u) => (t.data :: cs, u)
    | .fault _ => none
    | .refused _ => none

/-- The bus address of offset `o` of the window. -/
def at' (o : Nat) : Nat := Config.pBase + o

/-- The aligned offsets of the protected registers: CMD, KEYLEN, KEY0..3, DATA0..3, IV0..3 (R88). -/
def protectedOffset (o : Nat) : Prop := o % 4 = 0 ∧ (o = 0x000 ∨ o = 0x00C ∨ (0x020 ≤ o ∧ o ≤ 0x04C))

/-- The aligned offsets of RESULT, OUTLEN, BLKCNT, DATA0..3, CHAIN0..3 and RK[0..43]: unspecified while busy (R89). -/
def resultOffset (o : Nat) : Prop :=
  o % 4 = 0 ∧ ((0x010 ≤ o ∧ o ≤ 0x018) ∨ (0x030 ≤ o ∧ o ≤ 0x03C) ∨ (0x050 ≤ o ∧ o ≤ 0x05C) ∨ (0x100 ≤ o ∧ o ≤ 0x1AC))

/-- The aligned reserved offsets: 0x060 to 0x0FC and 0x1B0 to 0xFFC (R72). -/
def reservedOffset (o : Nat) : Prop := o % 4 = 0 ∧ ((0x060 ≤ o ∧ o ≤ 0x0FC) ∨ (0x1B0 ≤ o ∧ o ≤ 0xFFC))

/-- The aligned offsets of RESULT, OUTLEN, BLKCNT, ID, CHAIN0..3 and RK[0..43], read-only (R72). -/
def readOnlyOffset (o : Nat) : Prop :=
  o % 4 = 0 ∧ ((0x010 ≤ o ∧ o ≤ 0x01C) ∨ (0x050 ≤ o ∧ o ≤ 0x05C) ∨ (0x100 ≤ o ∧ o ≤ 0x1AC))

/-- The same state but for RK's physical contents, which may differ only while KEYV = 0. -/
def SameButHiddenRk (s t : State) : Prop := t = { s with rk := t.rk } ∧ (s.status.keyv = false ∨ t.rk = s.rk)

end Sys2Proof.Reference

open Sys2Proof Sys2Proof.Machine Sys2Proof.Reference

/-! ## Encoding -/

/-- R101, R103, R108: no bit of an encoding is dropped, and R104 splits the encoded commands into legal and not. -/
def Obligations.DecodeEncodeRoundTrip : Prop :=
  ∀ i : Instr, decode (encode i) = .ok i ∧ (WellFormed i → decodeLegal (encode i) = .ok i) ∧
    (¬ WellFormed i → ∃ e, decodeLegal (encode i) = .error e)

/-- R101 to R106: a word that decodes is the encoding of what it decodes to, so no two words mean one command. -/
def Obligations.DecodedWordIsItsEncoding : Prop :=
  ∀ (w : Word) (i : Instr), decode w = .ok i → encode i = w

/-- R106: the match and mask rows with their range checks are the field checks in the order written; a word decodes to a row exactly
if it matches it, and no two rows overlap. -/
def Obligations.DecodeMatchesFieldChecks : Prop :=
  (∀ w : Word, decodeLegal w = checkedDecode w) ∧
  (∀ (w : Word) (i : Instr), decode w = .ok i ↔ ∃ r ∈ rows, w &&& r.mask = r.mtch ∧ r.instr w = i) ∧
  (∀ w : Word, (rows.filter (Row.fits w)).length ≤ 1)

/-- R111's encoding examples: each word decodes to its command, or is rejected as R111 says. -/
def Obligations.WrittenOutWordsDecode : Prop :=
  decode 0x00000000 = .ok .nop ∧ decode 0x00000001 = .ok .keyexp ∧ decode 0x00000002 = .ok .init ∧
    decode 0x00000010 = .ok .encEcb ∧ decode 0x00000013 = .ok .decCbc ∧ decode 0x00000520 = .ok (.pad 5) ∧
    decode 0x00000020 = .ok (.pad 0) ∧ decode 0x00001020 = .ok (.pad 16) ∧ decodeLegal 0x00001020 = .error .invalidBlockLength ∧
    decode 0x00000021 = .ok .unpad ∧ decode 0x00000A36 = .ok (.addrk 10) ∧
    decodeLegal 0x00000B36 = .error .illegalCommand ∧ decode 0x83570040 = .ok (.gfmul 0x57 0x83) ∧
    decode 0x00530041 = .ok (.sbox 0x53) ∧ decode 0x00ED0042 = .ok (.invsbox 0xED) ∧
    decode 0x00000A43 = .ok (.rcon 10) ∧ decode 0x00002000 = .error .illegalCommand ∧
    decode 0x00010010 = .error .illegalCommand

/-! ## The step and completion -/

/-- R143: on the core's turn the pending word runs as the command it decodes to, and so does a word issued from any state with the
core's turn next. The step adds nothing around exec but taking its event from the agenda, the model's own form (log 1, log 13). -/
def Obligations.StepRunsDecodedCommand : Prop :=
  (∀ (s : State) (w : Word) (i : Instr), coreNext s → s.pending = some w → decode w = .ok i →
    step s = exec i (popped s)) ∧
  (∀ (s : State) (w : Word) (i : Instr), decode w = .ok i →
    step (s.withFetchWord 32 w.toNat) =
      exec i { s with cmd := w, pending := some w, inReset := false,
                      status := { s.status with busy := true, done := false } })

/-- R105: an unassigned OP, a non-zero RSV or a non-zero unused field completes with IllegalCommand, and nothing but STATUS changes;
CMD keeps the word. -/
def Obligations.IllegalWordsRaiseIllegalCommand : Prop :=
  ∀ (s : State) (w : Word), coreNext s → s.pending = some w →
    (∀ o, opInfo (fieldOP w) = some o → ¬ unusedZero o w) →
    ∃ t, step s = .next t ∧ t = failed .illegalCommand (popped s) ∧ (s.cmd = w → t.cmd = w)

/-- R147: every command completes, with no command pending, and STATUS then reads: BUSY 0, DONE 1, ERR as before or set by an error, OVR as
before, KEYV as before for every command but KEYEXP, ERRCODE the error's code of R321, and the reserved bits 0. -/
def Obligations.StatusAfterEveryCompletion : Prop :=
  ∀ (i : Instr) (s : State), ∃ t, exec i s = .next t ∧ t.pending = none ∧
    (statusWord t.status).getLsbD 0 = false ∧ (statusWord t.status).getLsbD 1 = true ∧
    (statusWord t.status).getLsbD 2 = ((statusWord s.status).getLsbD 2 || t.status.errcode.isSome) ∧
    (statusWord t.status).getLsbD 3 = (statusWord s.status).getLsbD 3 ∧
    (i ≠ .keyexp → (statusWord t.status).getLsbD 4 = (statusWord s.status).getLsbD 4) ∧
    (statusWord t.status).extractLsb' 5 3 = 0 ∧
    ((statusWord t.status).extractLsb' 8 4).toNat = errcodeValue t.status.errcode ∧
    (statusWord t.status).extractLsb' 12 20 = 0

/-- R145: a command that ends with an error changes only BUSY, DONE, ERR and ERRCODE (and pending), and KEYEXP's InvalidKeyLength
also clears KEYV. -/
def Obligations.FailedCommandChangesOnlyStatus : Prop :=
  ∀ (i : Instr) (s t : State) (e : CommandError), exec i s = .next t → t.status.errcode = some e →
    (e = .invalidKeyLength ↔ i = .keyexp) ∧
    t = failed e { s with status := { s.status with keyv := s.status.keyv && !decide (e = .invalidKeyLength) } }

/-- R148 with R23 to R35: the registers no command writes, and for each of the others the commands that may. -/
def Obligations.CommandsWriteOnlyTheirRegisters : Prop :=
  ∀ (i : Instr) (s t : State), exec i s = .next t →
    (t.cmd = s.cmd ∧ t.ie = s.ie ∧ t.keylen = s.keylen ∧ t.key = s.key ∧ t.iv = s.iv ∧ t.status.ovr = s.status.ovr ∧
      t.inReset = s.inReset ∧ t.agenda = s.agenda ∧ t.responses = s.responses ∧ t.draws = s.draws) ∧
    (writesData i = false → t.data = s.data) ∧ (writesChain i = false → t.chain = s.chain) ∧
    (writesResult i = false → t.result = s.result) ∧ (writesOutlen i = false → t.outlen = s.outlen) ∧
    (countsBlock i = false → i ≠ .init → t.blkcnt = s.blkcnt) ∧
    (i ≠ .keyexp → t.rk = s.rk ∧ t.status.keyv = s.status.keyv)

/-! ## The commands -/

/-- R149: NOP completes and changes nothing but the completion's STATUS update. -/
def Obligations.NopOnlyCompletes : Prop :=
  ∀ s : State, exec .nop s = .next (succeeded s)

/-- R164 with R161's first two points: GFMUL completes, writes the product of the polynomials of A and B reduced modulo 0x11B to
RESULT, and changes nothing else but the completion's STATUS update. -/
def Obligations.GfmulWritesPolynomialProduct : Prop :=
  ∀ (a b : Byte) (s : State), ∃ t, exec (.gfmul a b) s = .next t ∧
    t = { succeeded s with result := t.result } ∧ IsProduct a b t.result

/-- R162: the field laws of gmul. -/
def Obligations.GmulFieldLaws : Prop :=
  ∀ a b c : Byte, gmul a b = gmul b a ∧ gmul (gmul a b) c = gmul a (gmul b c) ∧
    gmul a (b ^^^ c) = gmul a b ^^^ gmul a c ∧ gmul a 0x01 = a ∧ gmul a 0x00 = 0x00 ∧
    (a ≠ 0 → ∃! a' : Byte, gmul a a' = 0x01)

/-- R183 to R185: SBOX and INVSBOX complete, and RESULT is the affine map of the field inverse and its inverse (the spec's cross-check
of its tables); nothing else changes but the completion's STATUS update. -/
def Obligations.SboxIsAffineOfInverse : Prop :=
  ∀ (a b : Byte) (s : State), IsInv a b →
    exec (.sbox a) s = .next { succeeded s with result := affine b } ∧
    exec (.invsbox (affine b)) s = .next { succeeded s with result := a }

/-- R182 at the commands R184 and R185: each of SBOX and INVSBOX undoes the other for every byte, so each table is a permutation,
and Sbox has neither a fixed point nor an opposite fixed point. -/
def Obligations.SboxAndInvsboxUndoEachOther : Prop :=
  ∀ (a : Byte) (s : State),
    (∃ t u, exec (.sbox a) s = .next t ∧ exec (.invsbox t.result) t = .next u ∧ u.result = a ∧
      t.result ≠ a ∧ t.result ≠ ~~~a) ∧
    (∃ t u, exec (.invsbox a) s = .next t ∧ exec (.sbox t.result) t = .next u ∧ u.result = a)

/-- R210 with R200's recurrence: RCON 1 gives 0x01, RCON n gives xtime of RCON n - 1, and N = 0 or N > 10 is IllegalCommand; nothing
else changes but the completion's STATUS update. -/
def Obligations.RconReadsRoundConstants : Prop :=
  ∀ (n : BitVec 5) (s : State),
    (1 ≤ n.toNat ∧ n.toNat ≤ 10 → ∃ t, exec (.rcon n) s = .next t ∧ t = { succeeded s with result := t.result } ∧
      (n.toNat = 1 → t.result = 0x01) ∧
      (1 < n.toNat → ∃ u, exec (.rcon (n - 1)) s = .next u ∧ t.result = xtime u.result)) ∧
    (n.toNat = 0 ∨ 10 < n.toNat → exec (.rcon n) s = .next (failed .illegalCommand s))

/-- R209 with R201 to R205: RotWord turns the bytes [a0, a1, a2, a3] of a word into [a1, a2, a3, a0], SubWord applies Sbox to each byte,
KEYEXP of a 16-byte key completes, RK is the recurrence from KEY0..3 with these, KEYV is set, and nothing else changes but the
completion's STATUS update. -/
def Obligations.KeyexpExpandsKey : Prop :=
  (∀ w : Word,
    (rotWord w).extractLsb' 24 8 = w.extractLsb' 16 8 ∧ (rotWord w).extractLsb' 16 8 = w.extractLsb' 8 8 ∧
    (rotWord w).extractLsb' 8 8 = w.extractLsb' 0 8 ∧ (rotWord w).extractLsb' 0 8 = w.extractLsb' 24 8 ∧
    (subWord w).extractLsb' 24 8 = sbox (w.extractLsb' 24 8) ∧ (subWord w).extractLsb' 16 8 = sbox (w.extractLsb' 16 8) ∧
    (subWord w).extractLsb' 8 8 = sbox (w.extractLsb' 8 8) ∧ (subWord w).extractLsb' 0 8 = sbox (w.extractLsb' 0 8)) ∧
  ∀ s : State, s.keylen = 16 → ∃ t, exec .keyexp s = .next t ∧
    t = { succeeded s with rk := t.rk, status := { okStatus s.status with keyv := true } } ∧
    (∀ i : Fin 4, t.rk[i.val]'(by omega) = s.key[i]) ∧
    (∀ i : Nat, ∀ h : 4 ≤ i ∧ i < 44,
      t.rk[i]'h.2 = t.rk[i - 4]'(by omega) ^^^
        (if i % 4 = 0 then
          subWord (rotWord (t.rk[i - 1]'(by omega))) ^^^ ((rcon (i / 4)).setWidth 32 <<< 24)
        else t.rk[i - 1]'(by omega)))

/-- R208, R209, R322: for every KEYLEN but 16, KEYEXP raises InvalidKeyLength and leaves no valid key; nothing else changes. -/
def Obligations.KeyexpRejectsOtherLengths : Prop :=
  ∀ s : State, s.keylen ≠ 16 →
    exec .keyexp s = .next { failed .invalidKeyLength s with
      status := { errStatus .invalidKeyLength s.status with keyv := false } }

/-- R238 to R241 with R230 to R233, byte by byte: SUBBYTES, INVSUBBYTES, SHIFTROWS and INVSHIFTROWS complete, transform DATA, and
change nothing else but the completion's STATUS update. -/
def Obligations.SubstituteAndShiftTransformBytes : Prop :=
  ∀ s : State,
    (∃ t, exec .subbytes s = .next t ∧ t = { succeeded s with data := t.data } ∧
      ∀ i : Fin 16, (blk t.data)[i] = sbox (blk s.data)[i]) ∧
    (∃ t, exec .invsubbytes s = .next t ∧ t = { succeeded s with data := t.data } ∧
      ∀ i : Fin 16, (blk t.data)[i] = invSbox (blk s.data)[i]) ∧
    (∃ t, exec .shiftrows s = .next t ∧ t = { succeeded s with data := t.data } ∧
      ∀ r c : Fin 4, (blk t.data)[4 * c.val + r.val]'(by omega) =
        (blk s.data)[4 * ((c.val + r.val) % 4) + r.val]'(by omega)) ∧
    (∃ t, exec .invshiftrows s = .next t ∧ t = { succeeded s with data := t.data } ∧
      ∀ r c : Fin 4, (blk t.data)[4 * c.val + r.val]'(by omega) =
        (blk s.data)[4 * ((c.val + 4 - r.val) % 4) + r.val]'(by omega))

/-- R242 and R243 with R234 and R235 written out: MIXCOLUMNS and INVMIXCOLUMNS complete, multiply each column by its matrix, and
change nothing else but the completion's STATUS update. -/
def Obligations.MixColumnsMultipliesByMatrix : Prop :=
  ∀ s : State, ∃ t u, exec .mixcolumns s = .next t ∧ exec .invmixcolumns s = .next u ∧
    t = { succeeded s with data := t.data } ∧ u = { succeeded s with data := u.data } ∧
    ∀ c : Fin 4, ∀ a0 a1 a2 a3 : Byte,
      a0 = (blk s.data)[4 * c.val]'(by omega) → a1 = (blk s.data)[4 * c.val + 1]'(by omega) →
      a2 = (blk s.data)[4 * c.val + 2]'(by omega) → a3 = (blk s.data)[4 * c.val + 3]'(by omega) →
      (blk t.data)[4 * c.val]'(by omega) = gmul 2 a0 ^^^ gmul 3 a1 ^^^ a2 ^^^ a3 ∧
      (blk t.data)[4 * c.val + 1]'(by omega) = a0 ^^^ gmul 2 a1 ^^^ gmul 3 a2 ^^^ a3 ∧
      (blk t.data)[4 * c.val + 2]'(by omega) = a0 ^^^ a1 ^^^ gmul 2 a2 ^^^ gmul 3 a3 ∧
      (blk t.data)[4 * c.val + 3]'(by omega) = gmul 3 a0 ^^^ a1 ^^^ a2 ^^^ gmul 2 a3 ∧
      (blk u.data)[4 * c.val]'(by omega) = gmul 14 a0 ^^^ gmul 11 a1 ^^^ gmul 13 a2 ^^^ gmul 9 a3 ∧
      (blk u.data)[4 * c.val + 1]'(by omega) = gmul 9 a0 ^^^ gmul 14 a1 ^^^ gmul 11 a2 ^^^ gmul 13 a3 ∧
      (blk u.data)[4 * c.val + 2]'(by omega) = gmul 13 a0 ^^^ gmul 9 a1 ^^^ gmul 14 a2 ^^^ gmul 11 a3 ∧
      (blk u.data)[4 * c.val + 3]'(by omega) = gmul 11 a0 ^^^ gmul 13 a1 ^^^ gmul 9 a2 ^^^ gmul 14 a3

/-- R237: each round operation and its inverse undo each other in both orders, AddRoundKey undoes itself, and the byte-wise maps commute
with the row rotations. -/
def Obligations.BlockTransformInverseLaws : Prop :=
  ∀ (s : Block) (rk : Schedule) (k : Fin 11),
    invSubBytes (subBytes s) = s ∧ subBytes (invSubBytes s) = s ∧
    invShiftRows (shiftRows s) = s ∧ shiftRows (invShiftRows s) = s ∧
    invMixColumns (mixColumns s) = s ∧ mixColumns (invMixColumns s) = s ∧
    addRoundKey rk (addRoundKey rk s k) k = s ∧
    subBytes (shiftRows s) = shiftRows (subBytes s) ∧ subBytes (invShiftRows s) = invShiftRows (subBytes s) ∧
    invSubBytes (shiftRows s) = shiftRows (invSubBytes s) ∧
    invSubBytes (invShiftRows s) = invShiftRows (invSubBytes s)

/-- R244 with R206 and R236: ADDRK n for n <= 10 with a valid key completes, XORs word 4n + j of RK into register j of DATA, and changes
nothing else but the completion's STATUS update. -/
def Obligations.AddrkXorsRoundKeyWords : Prop :=
  ∀ (n : BitVec 5) (s : State), ∀ h : n.toNat ≤ 10, s.status.keyv = true →
    ∃ t, exec (.addrk n) s = .next t ∧ t = { succeeded s with data := t.data } ∧
      ∀ j : Fin 4, t.data[j] = s.data[j] ^^^ s.rk[4 * n.toNat + j.val]'(by omega)

/-- R244, R325, R329: ADDRK with n > 10 raises IllegalCommand whether or not a key is valid; with n <= 10 it and the four cipher commands
raise NoKey while KEYV = 0; nothing but STATUS changes. -/
def Obligations.KeyCommandsRaiseNoKey : Prop :=
  ∀ (n : BitVec 5) (s : State),
    (10 < n.toNat → exec (.addrk n) s = .next (failed .illegalCommand s)) ∧
    (s.status.keyv = false →
      (n.toNat ≤ 10 → exec (.addrk n) s = .next (failed .noKey s)) ∧
      exec .encEcb s = .next (failed .noKey s) ∧ exec .decEcb s = .next (failed .noKey s) ∧
      exec .encCbc s = .next (failed .noKey s) ∧ exec .decCbc s = .next (failed .noKey s))

/-- R264 with R260 and R262: with a valid key ENC.ECB completes, DATA is what the round commands of R260's sequence make of it one by
one, BLKCNT adds 1 saturating, and nothing else changes but the completion's STATUS update. -/
def Obligations.EncEcbRunsItsRounds : Prop :=
  ∀ s : State, s.status.keyv = true → ∃ t u, exec .encEcb s = .next t ∧ runAll encRounds s = .next u ∧
    t.data = u.data ∧ t.blkcnt.toNat = min (s.blkcnt.toNat + 1) 0xFFFFFFFF ∧
    t = { succeeded s with data := t.data, blkcnt := t.blkcnt }

/-- R265 with R261 and R262: with a valid key DEC.ECB completes, DATA is what the round commands of R261's sequence make of it one by
one, BLKCNT adds 1 saturating, and nothing else changes but the completion's STATUS update. -/
def Obligations.DecEcbRunsItsRounds : Prop :=
  ∀ s : State, s.status.keyv = true → ∃ t u, exec .decEcb s = .next t ∧ runAll decRounds s = .next u ∧
    t.data = u.data ∧ t.blkcnt.toNat = min (s.blkcnt.toNat + 1) 0xFFFFFFFF ∧
    t = { succeeded s with data := t.data, blkcnt := t.blkcnt }

/-- R263: for every key schedule and every block, decryption undoes encryption and encryption undoes decryption, as functions and at
the commands. -/
def Obligations.EcbRoundTrip : Prop :=
  (∀ (rk : Schedule) (b : Block), invCipher rk (cipher rk b) = b ∧ cipher rk (invCipher rk b) = b) ∧
  (∀ s : State, s.status.keyv = true →
    (∃ t u, exec .encEcb s = .next t ∧ exec .decEcb t = .next u ∧ u.data = s.data) ∧
    (∃ t u, exec .decEcb s = .next t ∧ exec .encEcb t = .next u ∧ u.data = s.data))

/-- R266: each successful cipher command adds 1 to BLKCNT, saturating at 0xFFFFFFFF. -/
def Obligations.CipherCommandsCountBlocks : Prop :=
  ∀ (i : Instr) (s : State), countsBlock i = true → s.status.keyv = true →
    ∃ t, exec i s = .next t ∧ t.status.errcode = none ∧ t.blkcnt.toNat = min (s.blkcnt.toNat + 1) 0xFFFFFFFF

/-- R284: with a valid key ENC.CBC completes, DATA and CHAIN are what ENC.ECB makes of DATA XOR CHAIN, and nothing else changes but
BLKCNT and the completion's STATUS update. -/
def Obligations.EncCbcChainsCiphertext : Prop :=
  ∀ s : State, s.status.keyv = true → ∃ t u, exec .encCbc s = .next t ∧
    exec .encEcb { s with data := xorGroup s.data s.chain } = .next u ∧
    t = { succeeded s with data := u.data, chain := u.data, blkcnt := u.blkcnt }

/-- R285: with a valid key DEC.CBC completes, DATA is what DEC.ECB makes of it XOR CHAIN, CHAIN takes the ciphertext that was in DATA,
and nothing else changes but BLKCNT and the completion's STATUS update. -/
def Obligations.DecCbcKeepsCiphertext : Prop :=
  ∀ s : State, s.status.keyv = true → ∃ t u, exec .decCbc s = .next t ∧ exec .decEcb s = .next u ∧
    t = { succeeded s with data := xorGroup u.data s.chain, chain := s.data, blkcnt := u.blkcnt }

/-- R283: INIT completes, CHAIN takes IV, BLKCNT and OUTLEN become 0, and nothing else changes but the completion's STATUS update. -/
def Obligations.InitStartsMessage : Prop :=
  ∀ s : State, exec .init s = .next { succeeded s with chain := s.iv, blkcnt := 0, outlen := 0 }

/-- R286 with R281: PAD n for n <= 15 completes, keeps the first n bytes of DATA and sets the others to 16 - n, and changes nothing else
but the completion's STATUS update; for n >= 16 it raises InvalidBlockLength and changes nothing but STATUS. -/
def Obligations.PadFillsWithCount : Prop :=
  ∀ (n : BitVec 5) (s : State),
    (n.toNat ≤ 15 → ∃ t, exec (.pad n) s = .next t ∧ t = { succeeded s with data := t.data } ∧
      ∀ i : Fin 16, (i.val < n.toNat → (blk t.data)[i] = (blk s.data)[i]) ∧
        (n.toNat ≤ i.val → (blk t.data)[i].toNat = 16 - n.toNat)) ∧
    (16 ≤ n.toNat → exec (.pad n) s = .next (failed .invalidBlockLength s))

/-- R287 with R282: with p = DATA3[7:0], UNPAD succeeds exactly when 1 <= p <= 16 and p <= 16 * BLKCNT, writing OUTLEN = 16 - p and
nothing else but the completion's STATUS update; else it raises InvalidPadding and changes nothing but STATUS. No other byte of DATA
is looked at. -/
def Obligations.UnpadChecksFinalByte : Prop :=
  ∀ (s : State) (p : Nat), p = s.data[3].toNat % 256 →
    (1 ≤ p ∧ p ≤ 16 ∧ p ≤ 16 * s.blkcnt.toNat → ∃ t, exec .unpad s = .next t ∧
      t = { succeeded s with outlen := t.outlen } ∧ t.outlen.toNat = 16 - p) ∧
    (p = 0 ∨ 16 < p ∨ 16 * s.blkcnt.toNat < p → exec .unpad s = .next (failed .invalidPadding s))

/-- R288 and R289: a message of the full blocks `ps` and the first n bytes of `g`, encrypted with CBC after PAD n, decrypts with the
same IV to the same blocks, and UNPAD then keeps exactly those n bytes. -/
def Obligations.CbcPaddedMessageRoundTrip : Prop :=
  ∀ (s : State) (ps : List Group) (g : Group) (n : BitVec 5), s.status.keyv = true → n.toNat ≤ 15 →
    ∃ s0 s1 s2 s3 cs, exec .init s = .next s0 ∧ cipherBlocks .encCbc ps s0 = some (cs, s1) ∧
      exec (.pad n) { s1 with data := g } = .next s2 ∧ exec .encCbc s2 = .next s3 ∧ cs.length = ps.length ∧
    ∃ u0 u1 u2 qs q, exec .init s3 = .next u0 ∧ cipherBlocks .decCbc (cs ++ [s3.data]) u0 = some (qs ++ [q], u1) ∧
      exec .unpad u1 = .next u2 ∧ u2.status.errcode = none ∧ qs = ps ∧ u2.outlen.toNat = n.toNat ∧
      ∀ i : Fin 16, i.val < n.toNat → (blk q)[i] = (blk g)[i]

/-! ## Register groups -/

/-- R12, R77: byte i of a group is bits 31-8j to 24-8j of register i / 4, j = i mod 4, and writing a block back is the inverse. -/
def Obligations.BlockBytesAreBigEndian : Prop :=
  ∀ (g : Group) (b : Block), ofBlock (blk g) = g ∧ blk (ofBlock b) = b ∧
    ∀ (i : Fin 16) (k : Fin 8),
      (blk g)[i].getLsbD k.val = (g[i.val / 4]'(by omega)).getLsbD (24 - 8 * (i.val % 4) + k.val)

/-! ## The register window -/

/-- R72 to R74: what an aligned 32-bit read of each register returns while BUSY = 0, and that the read changes nothing. -/
def Obligations.IdleReadsFollowRegisterMap : Prop :=
  ∀ s : State, s.status.busy = false →
    access (.read (at' 0x000) 4) s = (.readOk s.cmd, s) ∧
    access (.read (at' 0x004) 4) s = (.readOk (statusWord s.status), s) ∧
    access (.read (at' 0x008) 4) s = (.readOk (if s.ie then 1 else 0), s) ∧
    access (.read (at' 0x00C) 4) s = (.readOk (s.keylen.setWidth 32), s) ∧
    access (.read (at' 0x010) 4) s = (.readOk (s.result.setWidth 32), s) ∧
    access (.read (at' 0x014) 4) s = (.readOk (s.outlen.setWidth 32), s) ∧
    access (.read (at' 0x018) 4) s = (.readOk s.blkcnt, s) ∧
    access (.read (at' 0x01C) 4) s = (.readOk 0x41455307, s) ∧
    (∀ n : Fin 4, access (.read (at' (0x020 + 4 * n.val)) 4) s = (.readOk s.key[n], s) ∧
      access (.read (at' (0x030 + 4 * n.val)) 4) s = (.readOk s.data[n], s) ∧
      access (.read (at' (0x040 + 4 * n.val)) 4) s = (.readOk s.iv[n], s) ∧
      access (.read (at' (0x050 + 4 * n.val)) 4) s = (.readOk s.chain[n], s)) ∧
    (∀ i : Fin 44, access (.read (at' (0x100 + 4 * i.val)) 4) s =
      (.readOk (if s.status.keyv then s.rk[i] else 0), s)) ∧
    (∀ o, reservedOffset o → access (.read (at' o) 4) s = (.readOk 0, s))

/-- R89, R40: while BUSY = 1 a read of DATA, CHAIN, RESULT, OUTLEN, BLKCNT or RK returns a free value (whatever it is: log 7), every other
aligned read returns the same value as it would with BUSY = 0 (STATUS, which holds BUSY, reads as it stands), and no read changes the
machine (only the count of free values). -/
def Obligations.BusyReadsOfResultsAreFree : Prop :=
  ∀ (s : State) (o : Nat), s.status.busy = true → o < 4096 → o % 4 = 0 →
    (resultOffset o → access (.read (at' o) 4) s =
      (.readOk (Config.freeWord s.draws), { s with draws := s.draws + 1 })) ∧
    (¬ resultOffset o → ∃ v, access (.read (at' o) 4) s = (.readOk v, s) ∧
      (o ≠ 0x004 → (access (.read (at' o) 4) { s with status := { s.status with busy := false } }).1 = .readOk v) ∧
      (o = 0x004 → v = statusWord s.status))

/-- R327 with R76: a transaction of a size other than 4 or at an offset not a multiple of 4 gets the error response and changes nothing of
the machine (an erroring read's data is a free value); an aligned 32-bit access, reserved and read-only offsets included, never does. -/
def Obligations.BadAccessIsBusErrorOnly : Prop :=
  ∀ (s : State) (o size : Nat) (v : Word), o < 4096 →
    (size ≠ 4 ∨ o % 4 ≠ 0 →
      access (.write (at' o) size v) s = (.writeErr, s) ∧
      access (.read (at' o) size) s = (.readErr (Config.freeWord s.draws), { s with draws := s.draws + 1 })) ∧
    (size = 4 ∧ o % 4 = 0 →
      (access (.write (at' o) size v) s).1 = .writeOk ∧ ∃ x, (access (.read (at' o) size) s).1 = .readOk x)

/-- R88: while BUSY = 1 a write to a protected register gets ok, is dropped and sets OVR and nothing else; writes to STATUS and CTRL take
effect. -/
def Obligations.ProtectedWritesDropWhileBusy : Prop :=
  ∀ (s : State) (v : Word), s.status.busy = true →
    (∀ o, protectedOffset o →
      access (.write (at' o) 4 v) s = (.writeOk, { s with status := { s.status with ovr := true } })) ∧
    access (.write (at' 0x008) 4 v) s = (.writeOk, { s with ie := v.getLsbD 0 }) ∧
    access (.write (at' 0x004) 4 v) s = (.writeOk, { s with status := { s.status with
      done := s.status.done && !v.getLsbD 1, err := s.status.err && !v.getLsbD 2, ovr := s.status.ovr && !v.getLsbD 3 } })

/-- R75, R26, R31 to R33: while BUSY = 0 a write to KEYLEN, KEY, DATA or IV is read back (KEYLEN's low byte), every other register reads
as before, and nothing else of the machine changes. -/
def Obligations.IdleWriteReadsBack : Prop :=
  ∀ (s : State) (o : Nat) (v : Word), s.status.busy = false → protectedOffset o → o ≠ 0x000 →
    ∃ t, access (.write (at' o) 4 v) s = (.writeOk, t) ∧
      access (.read (at' o) 4) t = (.readOk (if o = 0x00C then v &&& 0xFF else v), t) ∧
      (∀ o', o' < 4096 → o' % 4 = 0 → o' ≠ o →
        (access (.read (at' o') 4) t).1 = (access (.read (at' o') 4) s).1) ∧
      t = { s with keylen := t.keylen, key := t.key, data := t.data, iv := t.iv }

/-- R140: a CMD write while BUSY = 0 issues the word, whatever it is and whatever flags are set; irq falls; ERR, OVR, ERRCODE, KEYV and
every other register stay. While BUSY = 1 it is no issue: it is dropped and sets OVR. -/
def Obligations.CmdWriteIssues : Prop :=
  ∀ (s : State) (v : Word),
    (s.status.busy = false → ∃ t, access (.write (at' 0x000) 4 v) s = (.writeOk, t) ∧ irq t = false ∧
      t = { s with cmd := v, pending := some v, status := { s.status with busy := true, done := false } }) ∧
    (s.status.busy = true →
      access (.write (at' 0x000) 4 v) s = (.writeOk, { s with status := { s.status with ovr := true } }))

/-- R73: reserved offsets read as zero and ignore writes, writes to read-only registers are ignored, and STATUS's read-only fields keep
their values at a STATUS write; none of them sets OVR or gets an error response. -/
def Obligations.ReservedAndReadOnlyIgnoreWrites : Prop :=
  ∀ (s : State) (v : Word),
    (∀ o, reservedOffset o →
      access (.read (at' o) 4) s = (.readOk 0, s) ∧ access (.write (at' o) 4 v) s = (.writeOk, s)) ∧
    (∀ o, readOnlyOffset o → access (.write (at' o) 4 v) s = (.writeOk, s)) ∧
    (∃ t, access (.write (at' 0x004) 4 v) s = (.writeOk, t) ∧ t = { s with status := t.status } ∧
      t.status.busy = s.status.busy ∧ t.status.keyv = s.status.keyv ∧ t.status.errcode = s.status.errcode ∧
      (t.status.ovr = true → s.status.ovr = true))

/-- R24, R75: a STATUS write of v clears exactly the bits DONE, ERR and OVR that v has at 1, as STATUS reads. -/
def Obligations.StatusWriteClearsWrittenOnes : Prop :=
  ∀ (s : State) (v : Word), ∃ t, access (.write (at' 0x004) 4 v) s = (.writeOk, t) ∧
    statusWord t.status = statusWord s.status &&& ~~~(v &&& 0x0000000E) ∧ t = { s with status := t.status }

/-! ## The whole machine -/

/-- R37, R23, R28, R140, R207, R360: the invariant is kept by every step from every state that has it. -/
def Obligations.StepKeepsInvariant : Prop :=
  ∀ s t : State, Inv s → step s = .next t → Inv t

/-- R39: the reset state has the invariant, and reads as R39 says: every aligned offset 0 but ID. RK's zero contents are the model's choice
(log 5) and are not what makes RK read 0. -/
def Obligations.ResetHasInvariant : Prop :=
  Inv State.reset ∧ State.reset.pending = none ∧ irq State.reset = false ∧
    ∀ o, o < 4096 → o % 4 = 0 →
      access (.read (at' o) 4) State.reset = (.readOk (if o = 0x01C then 0x41455307 else 0), State.reset)

/-- I12, R35: RK's physical contents are never observable while KEYV = 0. Two states that differ in nothing else take the same step, with
the same answers on the bus, to two states that again differ in nothing else. -/
def Obligations.HiddenScheduleNotObservable : Prop :=
  ∀ s t : State, SameButHiddenRk s t →
    (∀ s', step s = .next s' → ∃ t', step t = .next t' ∧ SameButHiddenRk s' t') ∧
    (∀ r, step s = .refused r → step t = .refused r)

/-- R141: while a command is pending no host transactions, however many, change any of its inputs, so the command's outcome is the same
whether they came before its completion or not. -/
def Obligations.PendingCommandInputsFrozen : Prop :=
  ∀ (s : State) (trs : List Transaction), s.status.busy = true →
    ∀ t, t = trs.foldl (fun u tr => transact tr u) s →
    (t.keylen = s.keylen ∧ t.key = s.key ∧ t.data = s.data ∧ t.iv = s.iv ∧ t.chain = s.chain ∧ t.blkcnt = s.blkcnt ∧
      t.status.keyv = s.status.keyv ∧ t.rk = s.rk ∧ t.pending = s.pending ∧ t.cmd = s.cmd ∧ t.status.busy = true) ∧
    (∀ i : Instr, ∃ u v, exec i s = .next u ∧ exec i t = .next v ∧
      v.data = u.data ∧ v.chain = u.chain ∧ v.rk = u.rk ∧ v.result = u.result ∧ v.outlen = u.outlen ∧
      v.blkcnt = u.blkcnt ∧ v.status.errcode = u.status.errcode ∧ v.status.keyv = u.status.keyv)

/-- R380: from a safe state a pending command ends within as many steps as the agenda has events and one more. The
bound rests on the model's choice that the core takes its turn when the agenda is used up (log 2). -/
def Obligations.PendingCommandEnds : Prop :=
  ∀ s : State, Safe s → s.pending ≠ none →
    ∃ k, k ≤ s.agenda.length + 1 ∧ ∃ t, Sys2Proof.core.run k s = .next t ∧ t.pending = none

/-- R320, R360: no step faults; a step is refused exactly when reset is asserted and the next event is a host transaction or an assertion
of reset with a transaction in progress; and from a safe state, one whose agenda has no such event, every step answers a next state
that is safe again. That the refusal of a transaction asks for no routing is the model's choice (log 21). -/
def Obligations.SafeStatesStepOn : Prop :=
  (∀ s : State, Safe s → ∃ t, step s = .next t ∧ Safe t) ∧
  (∀ s : State, (∀ f, step s ≠ .fault f) ∧
    ∀ r, step s = .refused r ↔ r = .transactionDuringReset ∧ s.inReset = true ∧
      ((∃ tr, s.agenda.head? = some (.host tr)) ∨ (∃ tr, s.agenda.head? = some (.assertReset (some tr)))))

/-- R360, R361: asserting reset, with a transaction in progress or none, discards the pending command and gives every register its value
of R39; irq is 0; while it stays asserted a transaction is refused; after its release the window reads as R39 says. That a transaction
to an address outside the window is refused too is the model's choice (log 21). -/
def Obligations.ResetOverwritesEverything : Prop :=
  ∀ (s : State) (tr : Option Transaction) (rest : List Event), s.agenda = .assertReset tr :: .releaseReset :: rest →
    (s.inReset = false ∨ tr = none) →
    ∃ t u, step s = .next t ∧ AtReset t ∧ t.pending = none ∧ t.inReset = true ∧ irq t = false ∧
      (∀ tr', step { t with agenda := [.host tr'] } = .refused .transactionDuringReset) ∧
      step t = .next u ∧ u.inReset = false ∧ AtReset u ∧ u.agenda = rest ∧
      ∀ o, o < 4096 → o % 4 = 0 → (access (.read (at' o) 4) u).1 = .readOk (if o = 0x01C then 0x41455307 else 0)

/-- R37, R85: a pending command ends only by its completion on the core's turn or by reset; nothing replaces it. -/
def Obligations.OnlyCompletionOrResetEndsPending : Prop :=
  ∀ (s t : State) (w : Word), Inv s → s.pending = some w → step s = .next t → t.pending ≠ some w →
    t.pending = none ∧ (coreNext s ∨ ∃ tr, s.agenda.head? = some (.assertReset tr))

/-- R334, R335: irq is 1 exactly when CTRL reads bit 0 = 1 and STATUS reads bit 1 = 1; a completion with IE = 1 makes it 1, and so does a
CTRL write that sets IE while DONE = 1; it rises in no other step; and a STATUS write of 1 to bit 1 makes it 0. -/
def Obligations.IrqRisesOnlyOnCompletionOrEnable : Prop :=
  (∀ s : State, ∃ c w, access (.read (at' 0x008) 4) s = (.readOk c, s) ∧ access (.read (at' 0x004) 4) s = (.readOk w, s) ∧
    (irq s = true ↔ c.getLsbD 0 = true ∧ w.getLsbD 1 = true)) ∧
  (∀ s : State, coreNext s → s.pending ≠ none → ∃ t, step s = .next t ∧ irq t = s.ie) ∧
  (∀ (s : State) (v : Word), s.status.done = true → v.getLsbD 0 = true →
    irq (access (.write (at' 0x008) 4 v) s).2 = true) ∧
  (∀ (s : State) (v : Word), v.getLsbD 1 = true → irq (access (.write (at' 0x004) 4 v) s).2 = false) ∧
  (∀ s t : State, step s = .next t → irq s = false → irq t = true →
    (coreNext s ∧ s.pending ≠ none ∧ s.ie = true) ∨
    (∃ addr v, s.agenda.head? = some (.host (.write addr 4 v)) ∧ addr = at' 0x008 ∧ v.getLsbD 0 = true ∧
      s.status.done = true))

/-- R35, R207: RK changes only by a successful KEYEXP, to the expansion of KEY, or by reset. -/
def Obligations.ScheduleChangesOnlyByKeyexp : Prop :=
  ∀ s t : State, step s = .next t → t.rk ≠ s.rk →
    (coreNext s ∧ s.pending = some 0x00000001 ∧ s.keylen = 16 ∧ t.rk = keyExpand (blk s.key) ∧ t.status.keyv = true) ∨
    (∃ tr, s.agenda.head? = some (.assertReset tr))

/-- R24, R147, R329: a STATUS write and a completion in one cycle, taken in that order (log 10): the completion's DONE and ERR are not
lost, and an overrun in the same cycle stays set. -/
def Obligations.CompletionAfterSameCycleWrite : Prop :=
  ∀ (s : State) (w v : Word) (o : Nat) (rest : List Event), Inv s → s.inReset = false → s.pending = some w →
    (o = 0x004 ∨ protectedOffset o) →
    s.agenda = .host (.write (at' o) 4 v) :: .core :: rest →
    ∃ t u, step s = .next t ∧ step t = .next u ∧ u.pending = none ∧ u.status.busy = false ∧ u.status.done = true ∧
      (u.status.errcode ≠ none → u.status.err = true) ∧ (protectedOffset o → u.status.ovr = true)

/-! ## STATUS as it reads, and the host's turn -/

/-- R24, R321: STATUS reads, at any time and in any state, BUSY, DONE, ERR, OVR and KEYV at bits 0 to 4, the code of the last completion at
bits 11:8, and 0 elsewhere; the codes are 0 for none, 1 InvalidKeyLength, 2 InvalidPadding, 3 InvalidBlockLength, 4 NoKey and
5 IllegalCommand. -/
def Obligations.StatusReadsItsFields : Prop :=
  ∀ s : State, ∃ w, access (.read (at' 0x004) 4) s = (.readOk w, s) ∧
    w.getLsbD 0 = s.status.busy ∧ w.getLsbD 1 = s.status.done ∧ w.getLsbD 2 = s.status.err ∧
    w.getLsbD 3 = s.status.ovr ∧ w.getLsbD 4 = s.status.keyv ∧ w.extractLsb' 5 3 = 0 ∧
    (w.extractLsb' 8 4).toNat = errcodeValue s.status.errcode ∧ w.extractLsb' 12 20 = 0

/-- R74, R75, R82: with reset released, a step whose next event is a host transaction is that access to the state without the event, whole
and at once, with its response recorded as the newest answer (the list is the model's own, log 18); an address outside the window is
not routed and changes nothing (R76, log 8); and on the core's turn with no command pending nothing changes (R6). -/
def Obligations.HostTurnIsItsAccess : Prop :=
  (∀ (s : State) (tr : Transaction) (rest : List Event), s.agenda = .host tr :: rest → s.inReset = false →
    ∃ r u, access tr { s with agenda := rest } = (r, u) ∧ step s = .next { u with responses := r :: s.responses } ∧
      u.agenda = rest) ∧
  (∀ (s : State) (addr size : Nat) (v : Word), (addr < at' 0 ∨ at' 4096 ≤ addr) →
    access (.read addr size) s = (.notRouted, s) ∧ access (.write addr size v) s = (.notRouted, s)) ∧
  (∀ s : State, coreNext s → s.pending = none → step s = .next (popped s))

/-- R25, R75: a CTRL write of v, busy or idle, sets IE to bit 0 of v and changes nothing else; CTRL then reads that bit, with its reserved
bits 0. -/
def Obligations.CtrlWriteSetsIeOnly : Prop :=
  ∀ (s : State) (v : Word),
    access (.write (at' 0x008) 4 v) s = (.writeOk, { s with ie := v.getLsbD 0 }) ∧
    access (.read (at' 0x008) 4) { s with ie := v.getLsbD 0 } = (.readOk (v &&& 1), { s with ie := v.getLsbD 0 })
end

