-- ==== Sys2Proof/Laws/State.lean ====
section
/-! SUPPORT. One lemma for each field of each named update of the state, true by rfl. -/

namespace Sys2Proof.Machine

variable (s : State) (st : Status) (e : Option CommandError) (v : Word) (r : Response) (n : Nat)

/-! ## STATUS -/

@[simp] theorem Status.issued_busy : (st.issued).busy = true := rfl
@[simp] theorem Status.issued_done : (st.issued).done = false := rfl
@[simp] theorem Status.issued_err : (st.issued).err = st.err := rfl
@[simp] theorem Status.issued_ovr : (st.issued).ovr = st.ovr := rfl
@[simp] theorem Status.issued_keyv : (st.issued).keyv = st.keyv := rfl
@[simp] theorem Status.issued_errcode : (st.issued).errcode = st.errcode := rfl

@[simp] theorem Status.completed_busy : (st.completed e).busy = false := rfl
@[simp] theorem Status.completed_done : (st.completed e).done = true := rfl
@[simp] theorem Status.completed_err : (st.completed e).err = (st.err || e.isSome) := rfl
@[simp] theorem Status.completed_ovr : (st.completed e).ovr = st.ovr := rfl
@[simp] theorem Status.completed_keyv : (st.completed e).keyv = st.keyv := rfl
@[simp] theorem Status.completed_errcode : (st.completed e).errcode = e := rfl

@[simp] theorem Status.cleared_busy : (st.cleared v).busy = st.busy := rfl
@[simp] theorem Status.cleared_done : (st.cleared v).done = (st.done && !v.getLsbD 1) := rfl
@[simp] theorem Status.cleared_err : (st.cleared v).err = (st.err && !v.getLsbD 2) := rfl
@[simp] theorem Status.cleared_ovr : (st.cleared v).ovr = (st.ovr && !v.getLsbD 3) := rfl
@[simp] theorem Status.cleared_keyv : (st.cleared v).keyv = st.keyv := rfl
@[simp] theorem Status.cleared_errcode : (st.cleared v).errcode = st.errcode := rfl

@[simp] theorem Status.overrun_busy : (st.overrun).busy = st.busy := rfl
@[simp] theorem Status.overrun_done : (st.overrun).done = st.done := rfl
@[simp] theorem Status.overrun_err : (st.overrun).err = st.err := rfl
@[simp] theorem Status.overrun_ovr : (st.overrun).ovr = true := rfl
@[simp] theorem Status.overrun_keyv : (st.overrun).keyv = st.keyv := rfl
@[simp] theorem Status.overrun_errcode : (st.overrun).errcode = st.errcode := rfl

/-! ## State -/

@[simp] theorem complete_cmd : (complete e s).cmd = s.cmd := rfl
@[simp] theorem complete_status : (complete e s).status = s.status.completed e := rfl
@[simp] theorem complete_ie : (complete e s).ie = s.ie := rfl
@[simp] theorem complete_keylen : (complete e s).keylen = s.keylen := rfl
@[simp] theorem complete_result : (complete e s).result = s.result := rfl
@[simp] theorem complete_outlen : (complete e s).outlen = s.outlen := rfl
@[simp] theorem complete_blkcnt : (complete e s).blkcnt = s.blkcnt := rfl
@[simp] theorem complete_key : (complete e s).key = s.key := rfl
@[simp] theorem complete_data : (complete e s).data = s.data := rfl
@[simp] theorem complete_iv : (complete e s).iv = s.iv := rfl
@[simp] theorem complete_chain : (complete e s).chain = s.chain := rfl
@[simp] theorem complete_rk : (complete e s).rk = s.rk := rfl
@[simp] theorem complete_pending : (complete e s).pending = none := rfl
@[simp] theorem complete_inReset : (complete e s).inReset = s.inReset := rfl
@[simp] theorem complete_agenda : (complete e s).agenda = s.agenda := rfl
@[simp] theorem complete_responses : (complete e s).responses = s.responses := rfl
@[simp] theorem complete_draws : (complete e s).draws = s.draws := rfl

@[simp] theorem acknowledge_cmd : (acknowledge v s).cmd = s.cmd := rfl
@[simp] theorem acknowledge_status : (acknowledge v s).status = s.status.cleared v := rfl
@[simp] theorem acknowledge_ie : (acknowledge v s).ie = s.ie := rfl
@[simp] theorem acknowledge_keylen : (acknowledge v s).keylen = s.keylen := rfl
@[simp] theorem acknowledge_result : (acknowledge v s).result = s.result := rfl
@[simp] theorem acknowledge_outlen : (acknowledge v s).outlen = s.outlen := rfl
@[simp] theorem acknowledge_blkcnt : (acknowledge v s).blkcnt = s.blkcnt := rfl
@[simp] theorem acknowledge_key : (acknowledge v s).key = s.key := rfl
@[simp] theorem acknowledge_data : (acknowledge v s).data = s.data := rfl
@[simp] theorem acknowledge_iv : (acknowledge v s).iv = s.iv := rfl
@[simp] theorem acknowledge_chain : (acknowledge v s).chain = s.chain := rfl
@[simp] theorem acknowledge_rk : (acknowledge v s).rk = s.rk := rfl
@[simp] theorem acknowledge_pending : (acknowledge v s).pending = s.pending := rfl
@[simp] theorem acknowledge_inReset : (acknowledge v s).inReset = s.inReset := rfl
@[simp] theorem acknowledge_agenda : (acknowledge v s).agenda = s.agenda := rfl
@[simp] theorem acknowledge_responses : (acknowledge v s).responses = s.responses := rfl
@[simp] theorem acknowledge_draws : (acknowledge v s).draws = s.draws := rfl

@[simp] theorem issue_cmd : (issue v s).cmd = v := rfl
@[simp] theorem issue_status : (issue v s).status = s.status.issued := rfl
@[simp] theorem issue_ie : (issue v s).ie = s.ie := rfl
@[simp] theorem issue_keylen : (issue v s).keylen = s.keylen := rfl
@[simp] theorem issue_result : (issue v s).result = s.result := rfl
@[simp] theorem issue_outlen : (issue v s).outlen = s.outlen := rfl
@[simp] theorem issue_blkcnt : (issue v s).blkcnt = s.blkcnt := rfl
@[simp] theorem issue_key : (issue v s).key = s.key := rfl
@[simp] theorem issue_data : (issue v s).data = s.data := rfl
@[simp] theorem issue_iv : (issue v s).iv = s.iv := rfl
@[simp] theorem issue_chain : (issue v s).chain = s.chain := rfl
@[simp] theorem issue_rk : (issue v s).rk = s.rk := rfl
@[simp] theorem issue_pending : (issue v s).pending = some v := rfl
@[simp] theorem issue_inReset : (issue v s).inReset = s.inReset := rfl
@[simp] theorem issue_agenda : (issue v s).agenda = s.agenda := rfl
@[simp] theorem issue_responses : (issue v s).responses = s.responses := rfl
@[simp] theorem issue_draws : (issue v s).draws = s.draws := rfl

@[simp] theorem overrun_cmd : (overrun s).cmd = s.cmd := rfl
@[simp] theorem overrun_status : (overrun s).status = s.status.overrun := rfl
@[simp] theorem overrun_ie : (overrun s).ie = s.ie := rfl
@[simp] theorem overrun_keylen : (overrun s).keylen = s.keylen := rfl
@[simp] theorem overrun_result : (overrun s).result = s.result := rfl
@[simp] theorem overrun_outlen : (overrun s).outlen = s.outlen := rfl
@[simp] theorem overrun_blkcnt : (overrun s).blkcnt = s.blkcnt := rfl
@[simp] theorem overrun_key : (overrun s).key = s.key := rfl
@[simp] theorem overrun_data : (overrun s).data = s.data := rfl
@[simp] theorem overrun_iv : (overrun s).iv = s.iv := rfl
@[simp] theorem overrun_chain : (overrun s).chain = s.chain := rfl
@[simp] theorem overrun_rk : (overrun s).rk = s.rk := rfl
@[simp] theorem overrun_pending : (overrun s).pending = s.pending := rfl
@[simp] theorem overrun_inReset : (overrun s).inReset = s.inReset := rfl
@[simp] theorem overrun_agenda : (overrun s).agenda = s.agenda := rfl
@[simp] theorem overrun_responses : (overrun s).responses = s.responses := rfl
@[simp] theorem overrun_draws : (overrun s).draws = s.draws := rfl

@[simp] theorem drew_cmd : (drew n s).cmd = s.cmd := rfl
@[simp] theorem drew_status : (drew n s).status = s.status := rfl
@[simp] theorem drew_ie : (drew n s).ie = s.ie := rfl
@[simp] theorem drew_keylen : (drew n s).keylen = s.keylen := rfl
@[simp] theorem drew_result : (drew n s).result = s.result := rfl
@[simp] theorem drew_outlen : (drew n s).outlen = s.outlen := rfl
@[simp] theorem drew_blkcnt : (drew n s).blkcnt = s.blkcnt := rfl
@[simp] theorem drew_key : (drew n s).key = s.key := rfl
@[simp] theorem drew_data : (drew n s).data = s.data := rfl
@[simp] theorem drew_iv : (drew n s).iv = s.iv := rfl
@[simp] theorem drew_chain : (drew n s).chain = s.chain := rfl
@[simp] theorem drew_rk : (drew n s).rk = s.rk := rfl
@[simp] theorem drew_pending : (drew n s).pending = s.pending := rfl
@[simp] theorem drew_inReset : (drew n s).inReset = s.inReset := rfl
@[simp] theorem drew_agenda : (drew n s).agenda = s.agenda := rfl
@[simp] theorem drew_responses : (drew n s).responses = s.responses := rfl
@[simp] theorem drew_draws : (drew n s).draws = s.draws + n := rfl

@[simp] theorem respond_cmd : (respond r s).cmd = s.cmd := rfl
@[simp] theorem respond_status : (respond r s).status = s.status := rfl
@[simp] theorem respond_ie : (respond r s).ie = s.ie := rfl
@[simp] theorem respond_keylen : (respond r s).keylen = s.keylen := rfl
@[simp] theorem respond_result : (respond r s).result = s.result := rfl
@[simp] theorem respond_outlen : (respond r s).outlen = s.outlen := rfl
@[simp] theorem respond_blkcnt : (respond r s).blkcnt = s.blkcnt := rfl
@[simp] theorem respond_key : (respond r s).key = s.key := rfl
@[simp] theorem respond_data : (respond r s).data = s.data := rfl
@[simp] theorem respond_iv : (respond r s).iv = s.iv := rfl
@[simp] theorem respond_chain : (respond r s).chain = s.chain := rfl
@[simp] theorem respond_rk : (respond r s).rk = s.rk := rfl
@[simp] theorem respond_pending : (respond r s).pending = s.pending := rfl
@[simp] theorem respond_inReset : (respond r s).inReset = s.inReset := rfl
@[simp] theorem respond_agenda : (respond r s).agenda = s.agenda := rfl
@[simp] theorem respond_responses : (respond r s).responses = r :: s.responses := rfl
@[simp] theorem respond_draws : (respond r s).draws = s.draws := rfl

@[simp] theorem leaveReset_cmd : (leaveReset s).cmd = s.cmd := rfl
@[simp] theorem leaveReset_status : (leaveReset s).status = s.status := rfl
@[simp] theorem leaveReset_ie : (leaveReset s).ie = s.ie := rfl
@[simp] theorem leaveReset_keylen : (leaveReset s).keylen = s.keylen := rfl
@[simp] theorem leaveReset_result : (leaveReset s).result = s.result := rfl
@[simp] theorem leaveReset_outlen : (leaveReset s).outlen = s.outlen := rfl
@[simp] theorem leaveReset_blkcnt : (leaveReset s).blkcnt = s.blkcnt := rfl
@[simp] theorem leaveReset_key : (leaveReset s).key = s.key := rfl
@[simp] theorem leaveReset_data : (leaveReset s).data = s.data := rfl
@[simp] theorem leaveReset_iv : (leaveReset s).iv = s.iv := rfl
@[simp] theorem leaveReset_chain : (leaveReset s).chain = s.chain := rfl
@[simp] theorem leaveReset_rk : (leaveReset s).rk = s.rk := rfl
@[simp] theorem leaveReset_pending : (leaveReset s).pending = s.pending := rfl
@[simp] theorem leaveReset_inReset : (leaveReset s).inReset = false := rfl
@[simp] theorem leaveReset_agenda : (leaveReset s).agenda = s.agenda := rfl
@[simp] theorem leaveReset_responses : (leaveReset s).responses = s.responses := rfl
@[simp] theorem leaveReset_draws : (leaveReset s).draws = s.draws := rfl

@[simp] theorem popped_cmd : (popped s).cmd = s.cmd := rfl
@[simp] theorem popped_status : (popped s).status = s.status := rfl
@[simp] theorem popped_ie : (popped s).ie = s.ie := rfl
@[simp] theorem popped_keylen : (popped s).keylen = s.keylen := rfl
@[simp] theorem popped_result : (popped s).result = s.result := rfl
@[simp] theorem popped_outlen : (popped s).outlen = s.outlen := rfl
@[simp] theorem popped_blkcnt : (popped s).blkcnt = s.blkcnt := rfl
@[simp] theorem popped_key : (popped s).key = s.key := rfl
@[simp] theorem popped_data : (popped s).data = s.data := rfl
@[simp] theorem popped_iv : (popped s).iv = s.iv := rfl
@[simp] theorem popped_chain : (popped s).chain = s.chain := rfl
@[simp] theorem popped_rk : (popped s).rk = s.rk := rfl
@[simp] theorem popped_pending : (popped s).pending = s.pending := rfl
@[simp] theorem popped_inReset : (popped s).inReset = s.inReset := rfl
@[simp] theorem popped_agenda : (popped s).agenda = s.agenda.tail := rfl
@[simp] theorem popped_responses : (popped s).responses = s.responses := rfl
@[simp] theorem popped_draws : (popped s).draws = s.draws := rfl

@[simp] theorem enterReset_cmd : (enterReset s).cmd = State.reset.cmd := rfl
@[simp] theorem enterReset_status : (enterReset s).status = State.reset.status := rfl
@[simp] theorem enterReset_ie : (enterReset s).ie = State.reset.ie := rfl
@[simp] theorem enterReset_keylen : (enterReset s).keylen = State.reset.keylen := rfl
@[simp] theorem enterReset_result : (enterReset s).result = State.reset.result := rfl
@[simp] theorem enterReset_outlen : (enterReset s).outlen = State.reset.outlen := rfl
@[simp] theorem enterReset_blkcnt : (enterReset s).blkcnt = State.reset.blkcnt := rfl
@[simp] theorem enterReset_key : (enterReset s).key = State.reset.key := rfl
@[simp] theorem enterReset_data : (enterReset s).data = State.reset.data := rfl
@[simp] theorem enterReset_iv : (enterReset s).iv = State.reset.iv := rfl
@[simp] theorem enterReset_chain : (enterReset s).chain = State.reset.chain := rfl
@[simp] theorem enterReset_rk : (enterReset s).rk = drawnSchedule s := rfl
@[simp] theorem enterReset_pending : (enterReset s).pending = State.reset.pending := rfl
@[simp] theorem enterReset_inReset : (enterReset s).inReset = true := rfl
@[simp] theorem enterReset_agenda : (enterReset s).agenda = s.agenda := rfl
@[simp] theorem enterReset_responses : (enterReset s).responses = s.responses := rfl
@[simp] theorem enterReset_draws : (enterReset s).draws = s.draws + 44 := rfl

/-! ## The words of the statements -/

theorem succeeded_eq_complete : succeeded s = complete none s := by
  simp [succeeded, complete, okStatus, Status.completed]

theorem failed_eq_complete (er : CommandError) : failed er s = complete (some er) s := by
  simp [failed, complete, errStatus, Status.completed]

theorem atReset_reset : AtReset State.reset := rfl

theorem atReset_enterReset : AtReset (enterReset s) := rfl

theorem atReset_leaveReset (h : AtReset s) : AtReset (leaveReset s) := by
  unfold AtReset at h ⊢
  unfold leaveReset
  conv_lhs => rw [h]

end Sys2Proof.Machine
end

