-- ==== Sys2Proof/Laws/Ops.lean ====
section
/-! SUPPORT. What each shared operation can do, once. -/

namespace Sys2Proof.Machine

/-- A successful command answers the completed state. -/
theorem succeed_eq (s : State) : succeed s = .next (succeeded s) := by rw [succeeded_eq_complete]; rfl

/-- An error changes STATUS and pending, and nothing else. -/
theorem raise_eq (e : CommandError) (s : State) : raise e s = .next (failed e s) := by rw [failed_eq_complete]; rfl

theorem needKey_of_keyv {s : State} (h : s.status.keyv = true) (run : Host.Outcome State Fault Refusal) :
    needKey s run = run := by simp [needKey, h]

theorem needKey_of_not_keyv {s : State} (h : s.status.keyv = false) (run : Host.Outcome State Fault Refusal) :
    needKey s run = .next (failed .noKey s) := by simp [needKey, h, raise_eq]

/-- What a command that needs the key answers: NoKey, or what it answers with one. -/
theorem needKey_cases (s : State) (run : Host.Outcome State Fault Refusal) :
    (s.status.keyv = false ∧ needKey s run = raise .noKey s) ∨ (s.status.keyv = true ∧ needKey s run = run) := by
  cases h : s.status.keyv <;> simp [needKey, h]

theorem protectedWrite_busy {s : State} (h : s.status.busy = true) (u : State) :
    protectedWrite s u = overrun s := by simp [protectedWrite, h]

theorem protectedWrite_idle {s : State} (h : s.status.busy = false) (u : State) :
    protectedWrite s u = u := by simp [protectedWrite, h]

theorem satInc_toNat (x : Word) : (satInc x).toNat = min (x.toNat + 1) 0xFFFFFFFF := by
  unfold satInc
  split
  · next h => subst h; rfl
  · next h =>
    have : x.toNat ≠ 0xFFFFFFFF := fun hx => h (BitVec.eq_of_toNat_eq hx)
    have := x.isLt
    have e : (1 : Word).toNat = 1 := rfl
    rw [BitVec.toNat_add, e]
    omega

/-- One turn of the block counter changes no other piece of state: the shape of every transform of DATA. -/
theorem transformData_eq (f : Block → Block) (s : State) :
    transformData f s = .next { succeeded s with data := ofBlock (f (blk s.data)) } := by
  rw [transformData, succeed_eq]; rfl

end Sys2Proof.Machine
end

