-- ==== Sys2Proof/Laws/Bus.lean ====
section
/-! SUPPORT. The register window: routing, the map, and everything a transaction can do. -/

namespace Sys2Proof.Machine

/-- An offset of the window is routed to itself. -/
theorem route_pBase {o : Nat} (h : o < 4096) : route (Config.pBase + o) = some (BitVec.ofNat 12 o) := by
  have e : (Config.pBase + o) / 4096 = Config.windowFrame := by unfold Config.pBase; omega
  have m : (Config.pBase + o) % 4096 = o := by unfold Config.pBase; omega
  simp [route, e, m]

/-- The one bus address that is routed to an offset. -/
theorem route_eq_some {addr : Nat} {off : Offset} (h : route addr = some off) : addr = Config.pBase + off.toNat := by
  unfold route at h
  split at h
  · next hf =>
    obtain rfl := Option.some.inj h
    rw [BitVec.toNat_ofNat, Config.pBase, ← hf]
    have : addr % 4096 % 2 ^ 12 = addr % 4096 := by omega
    omega
  · cases h

theorem decoded_ofNat {o size : Nat} (h : o < 4096) :
    decoded (BitVec.ofNat 12 o) size = (size == 4 && o % 4 == 0) := by
  simp [decoded, Nat.mod_eq_of_lt h]

/-! ## The register map at its offsets (R72) -/

theorem regAt_key : ∀ n : Fin 4, regAt (BitVec.ofNat 12 (0x020 + 4 * n.val)) = .key n := by decide

theorem regAt_data : ∀ n : Fin 4, regAt (BitVec.ofNat 12 (0x030 + 4 * n.val)) = .data n := by decide

theorem regAt_iv : ∀ n : Fin 4, regAt (BitVec.ofNat 12 (0x040 + 4 * n.val)) = .iv n := by decide

theorem regAt_chain : ∀ n : Fin 4, regAt (BitVec.ofNat 12 (0x050 + 4 * n.val)) = .chain n := by decide

theorem regAt_rk : ∀ i : Fin 44, regAt (BitVec.ofNat 12 (0x100 + 4 * i.val)) = .rk i := by decide +kernel

/-- The offset of each register (R72); none for the reserved ones. -/
def regOffset : Reg → Option Nat
  | .cmd => some 0x000
  | .status => some 0x004
  | .ctrl => some 0x008
  | .keylen => some 0x00C
  | .result => some 0x010
  | .outlen => some 0x014
  | .blkcnt => some 0x018
  | .id => some 0x01C
  | .key n => some (0x020 + 4 * n.val)
  | .data n => some (0x030 + 4 * n.val)
  | .iv n => some (0x040 + 4 * n.val)
  | .chain n => some (0x050 + 4 * n.val)
  | .rk i => some (0x100 + 4 * i.val)
  | .reserved => none

/-- The map read backwards: an aligned offset is its register's offset, or one of the reserved ones. -/
theorem regOffset_regAt : ∀ off : Offset, off.toNat % 4 = 0 →
    regOffset (regAt off) = some off.toNat ∨
      (regAt off = .reserved ∧ ((0x060 ≤ off.toNat ∧ off.toNat ≤ 0x0FC) ∨ 0x1B0 ≤ off.toNat)) := by
  decide +kernel

/-- The state after a read differs in the count of free values only. -/
theorem busRead_state (off : Offset) (size : Nat) (s : State) :
    ∃ n, (busRead off size s).2 = drew n s := by
  unfold busRead
  split
  · split
    · exact ⟨1, rfl⟩
    · exact ⟨0, rfl⟩
  · exact ⟨1, rfl⟩

/-- Everything a transaction can do to the state: count free values, or write a register. -/
theorem access_state (t : Transaction) (s : State) :
    (∃ n, (access t s).2 = drew n s) ∨
      (∃ addr off v, t = .write addr 4 v ∧ route addr = some off ∧ off.toNat % 4 = 0 ∧
        (access t s).2 = writeReg (regAt off) v s) := by
  cases t with
  | read addr size =>
    left
    cases hr : route addr with
    | none => simp only [access, hr]; exact ⟨0, rfl⟩
    | some off => simp only [access, hr]; exact busRead_state off size s
  | write addr size v =>
    cases hr : route addr with
    | none => simp only [access, hr]; exact .inl ⟨0, rfl⟩
    | some off =>
      cases hd : decoded off size with
      | false => simp only [access, hr, busWrite, hd]; exact .inl ⟨0, rfl⟩
      | true =>
        have hd' := hd
        simp only [decoded, Bool.and_eq_true, beq_iff_eq] at hd'
        obtain ⟨rfl, ha⟩ := hd'
        exact .inr ⟨addr, off, v, rfl, hr, ha, by simp [access, hr, busWrite, hd]⟩

/-- Everything a register write can do (R75): nothing, a STATUS clear, IE, an overrun, or, while idle, an issue or a stored value. -/
theorem writeReg_cases (r : Reg) (v : Word) (s : State) :
    writeReg r v s = s ∨ (r = .status ∧ writeReg r v s = acknowledge v s) ∨
    (r = .ctrl ∧ writeReg r v s = { s with ie := v.getLsbD 0 }) ∨
    (s.status.busy = true ∧ writeReg r v s = overrun s) ∨
    (s.status.busy = false ∧ r = .cmd ∧ writeReg r v s = issue v s) ∨
    (s.status.busy = false ∧ ∃ kl k d iv, writeReg r v s = { s with keylen := kl, key := k, data := d, iv := iv }) := by
  cases hb : s.status.busy <;> cases r <;> simp only [writeReg, protectedWrite, hb] <;> simp

/-- A register write changes nothing of the reset input, the agenda, the answers or the count of free values. -/
theorem writeReg_outside (r : Reg) (v : Word) (s : State) :
    (writeReg r v s).inReset = s.inReset ∧ (writeReg r v s).agenda = s.agenda ∧
      (writeReg r v s).responses = s.responses ∧ (writeReg r v s).draws = s.draws := by
  rcases writeReg_cases r v s with h | ⟨-, h⟩ | ⟨-, h⟩ | ⟨-, h⟩ | ⟨-, -, h⟩ | ⟨-, _, _, _, _, h⟩ <;> rw [h] <;>
    exact ⟨rfl, rfl, rfl, rfl⟩

/-- Nor does a transaction, but for the count of free values. -/
theorem access_outside (t : Transaction) (s : State) :
    (access t s).2.inReset = s.inReset ∧ (access t s).2.agenda = s.agenda ∧ (access t s).2.responses = s.responses := by
  rcases access_state t s with ⟨n, h⟩ | ⟨_, off, v, -, -, -, h⟩ <;> rw [h]
  · exact ⟨rfl, rfl, rfl⟩
  · have := writeReg_outside (regAt off) v s
    exact ⟨this.1, this.2.1, this.2.2.1⟩

/-- What a transaction cut short by reset leaves of what reset does not overwrite: one answer more, and three free values drawn. -/
theorem cutShort_outside (t : Transaction) (s : State) :
    (cutShort t s).inReset = s.inReset ∧ (cutShort t s).agenda = s.agenda ∧ (cutShort t s).draws = s.draws + 3 ∧
      ∃ r, (cutShort t s).responses = r :: s.responses := by
  have h := access_outside t s
  unfold cutShort
  cases Config.freeBool s.draws
  · exact ⟨rfl, rfl, rfl, _, rfl⟩
  · exact ⟨h.1, h.2.1, rfl, _, congrArg (List.cons _) h.2.2⟩

end Sys2Proof.Machine
end

