-- ==== Sys2Proof/Laws/Exec.lean ====
section
/-! SUPPORT. Everything a command's completion can do, once: the inversion of exec. -/

namespace Sys2Proof.Machine

/-- The registers a command may write before its completion: `u` is `s` but for KEYV, RESULT, OUTLEN, BLKCNT, DATA, CHAIN and RK. -/
def WritesOf (s u : State) : Prop :=
  u = { s with
    status := { s.status with keyv := u.status.keyv }
    result := u.result
    outlen := u.outlen
    blkcnt := u.blkcnt
    data := u.data
    chain := u.chain
    rk := u.rk }

/-- exec always answers the completion, with some code, of a state that differs from `s` in registers commands write only. -/
theorem exec_completes (i : Instr) (s : State) :
    ∃ e u, exec i s = .next (complete e u) ∧ WritesOf s u := by
  have key : ∀ u, WritesOf s u → ∃ e v, needKey s (succeed u) = .next (complete e v) ∧ WritesOf s v := by
    intro u hu
    rcases needKey_cases s (succeed u) with ⟨-, h⟩ | ⟨-, h⟩ <;> rw [h]
    · exact ⟨_, s, rfl, rfl⟩
    · exact ⟨_, u, rfl, hu⟩
  cases i with
  | encEcb => exact key _ rfl
  | decEcb => exact key _ rfl
  | encCbc => exact key _ rfl
  | decCbc => exact key _ rfl
  | keyexp =>
    simp only [exec, execKeyexp]
    split <;> exact ⟨_, _, rfl, rfl⟩
  | pad n =>
    simp only [exec, execPad]
    split <;> exact ⟨_, _, rfl, rfl⟩
  | unpad =>
    simp only [exec, execUnpad]
    split <;> exact ⟨_, _, rfl, rfl⟩
  | addrk n =>
    simp only [exec, execAddrk]
    split
    · exact key _ rfl
    · exact ⟨_, _, rfl, rfl⟩
  | rcon n =>
    simp only [exec, execRcon]
    split <;> exact ⟨_, _, rfl, rfl⟩
  | nop => exact ⟨_, _, rfl, rfl⟩
  | init => exact ⟨_, _, rfl, rfl⟩
  | subbytes => exact ⟨_, _, rfl, rfl⟩
  | invsubbytes => exact ⟨_, _, rfl, rfl⟩
  | shiftrows => exact ⟨_, _, rfl, rfl⟩
  | invshiftrows => exact ⟨_, _, rfl, rfl⟩
  | mixcolumns => exact ⟨_, _, rfl, rfl⟩
  | invmixcolumns => exact ⟨_, _, rfl, rfl⟩
  | gfmul a b => exact ⟨_, _, rfl, rfl⟩
  | sbox a => exact ⟨_, _, rfl, rfl⟩
  | invsbox a => exact ⟨_, _, rfl, rfl⟩

/-- The same for a pending word, whether or not it decodes. -/
theorem runCommand_completes (w : Word) (s : State) :
    ∃ e u, runCommand w s = .next (complete e u) ∧ WritesOf s u := by
  unfold runCommand
  split
  · exact ⟨_, s, rfl, rfl⟩
  · exact exec_completes _ s

end Sys2Proof.Machine
end

