-- ==== Sys2Proof/Laws/Operands.lean ====
section
/-! SUPPORT. Bytes of words, blocks and register groups. -/

namespace Sys2Proof.Machine

/-- Two words with the same four bytes are the same word. -/
theorem wordOfBytes_wordByte (w : Word) :
    wordOfBytes (wordByte w 0) (wordByte w 1) (wordByte w 2) (wordByte w 3) = w := by
  apply BitVec.eq_of_getLsbD_eq
  intro i hi
  simp only [wordOfBytes, wordByte, BitVec.getLsbD_append, BitVec.getLsbD_extractLsb']
  have h0 : (0 : Fin 4).val = 0 := rfl
  have h1 : (1 : Fin 4).val = 1 := rfl
  have h2 : (2 : Fin 4).val = 2 := rfl
  have h3 : (3 : Fin 4).val = 3 := rfl
  simp only [h0, h1, h2, h3]
  split <;> rename_i c
  · simp [c]
  · split <;> rename_i c'
    · have : i - 8 < 8 := by omega
      simp [this]; congr 1; omega
    · split <;> rename_i c''
      · have : i - 8 - 8 < 8 := by omega
        simp [this]; congr 1; omega
      · have : i - 8 - 8 - 8 < 8 := by omega
        simp [this]; congr 1; omega

/-- The bytes of a word made of four bytes. -/
theorem wordByte_wordOfBytes (b0 b1 b2 b3 : Byte) (j : Fin 4) :
    wordByte (wordOfBytes b0 b1 b2 b3) j = [b0, b1, b2, b3][j.val] := by
  apply BitVec.eq_of_getLsbD_eq
  intro i hi
  fin_cases j <;> simp only [wordOfBytes, wordByte, BitVec.getLsbD_append, BitVec.getLsbD_extractLsb', hi,
    decide_true, Bool.true_and]
  · have a : ¬ (24 + i < 8) := by omega
    have b : ¬ (24 + i - 8 < 8) := by omega
    have c : ¬ (24 + i - 8 - 8 < 8) := by omega
    simp [a, b, c]; congr 1; omega
  · have a : ¬ (16 + i < 8) := by omega
    have b : ¬ (16 + i - 8 < 8) := by omega
    have c : 16 + i - 8 - 8 < 8 := by omega
    simp [a, b, c]; congr 1; omega
  · have a : ¬ (8 + i < 8) := by omega
    simp only [a, if_false]
    have b : 8 + i - 8 = i := by omega
    simp [b, hi]
  · simp [hi]

/-- Byte i of a register group. -/
theorem blk_getElem (g : Group) (i : Nat) (hi : i < 16) :
    (blk g)[i] = wordByte (g[i / 4]'(by omega)) ⟨i % 4, by omega⟩ := by
  simp [blk]

/-- Register n of a group written with a block. -/
theorem ofBlock_getElem (b : Block) (n : Nat) (hn : n < 4) :
    (ofBlock b)[n] = wordOfBytes (b[4 * n]'(by omega)) (b[4 * n + 1]'(by omega)) (b[4 * n + 2]'(by omega))
      (b[4 * n + 3]'(by omega)) := by
  simp [ofBlock]

theorem ofBlock_blk (g : Group) : ofBlock (blk g) = g := by
  ext n hn
  rw [ofBlock_getElem _ _ hn]
  simp only [blk_getElem]
  have e0 : 4 * n / 4 = n := by omega
  have e1 : (4 * n + 1) / 4 = n := by omega
  have e2 : (4 * n + 2) / 4 = n := by omega
  have e3 : (4 * n + 3) / 4 = n := by omega
  have m0 : 4 * n % 4 = 0 := by omega
  have m1 : (4 * n + 1) % 4 = 1 := by omega
  have m2 : (4 * n + 2) % 4 = 2 := by omega
  have m3 : (4 * n + 3) % 4 = 3 := by omega
  simp only [e0, e1, e2, e3, m0, m1, m2, m3]
  exact congrArg (fun w : Word => w.getLsbD _) (wordOfBytes_wordByte g[n])

theorem blk_ofBlock (b : Block) : blk (ofBlock b) = b := by
  apply Vector.ext
  intro i hi
  rw [blk_getElem _ _ hi, ofBlock_getElem _ _ (by omega), wordByte_wordOfBytes]
  have h : i % 4 = 0 ∨ i % 4 = 1 ∨ i % 4 = 2 ∨ i % 4 = 3 := by omega
  rcases h with h | h | h | h <;> simp only [h, List.getElem_cons_zero, List.getElem_cons_succ] <;>
    congr 1 <;> omega

/-- Byte 4c + r of a block made from its matrix. -/
theorem entry_blockOf (f : Fin 4 → Fin 4 → Byte) (r c : Fin 4) : entry (blockOf f) r c = f r c := by
  simp only [entry, blockOf, Vector.getElem_ofFn]
  congr 1 <;> ext <;> (simp only []; omega)

/-- A block is determined by its matrix. -/
theorem block_ext {s t : Block} (h : ∀ r c, entry s r c = entry t r c) : s = t := by
  apply Vector.ext
  intro i hi
  have := h ⟨i % 4, by omega⟩ ⟨i / 4, by omega⟩
  simp only [entry] at this
  have e : 4 * (i / 4) + i % 4 = i := by omega
  simpa only [e] using this

theorem entry_mapBytes (f : Byte → Byte) (s : Block) (r c : Fin 4) : entry (mapBytes f s) r c = f (entry s r c) := by
  simp [entry, mapBytes]

theorem entry_xorBlock (a b : Block) (r c : Fin 4) : entry (xorBlock a b) r c = entry a r c ^^^ entry b r c := by
  simp [entry, xorBlock]

theorem xorBlock_xorBlock (a b : Block) : xorBlock (xorBlock a b) b = a := by
  apply block_ext
  intro r c
  rw [entry_xorBlock, entry_xorBlock, BitVec.xor_assoc, BitVec.xor_self, BitVec.xor_zero]

end Sys2Proof.Machine
end

