-- ==== Sys2Proof/Laws/PerInstr.lean ====
section
/-! SUPPORT. What every command's encoding holds in its OP and RSV fields (30_encoding.md R101, R103). -/

namespace Sys2Proof.Laws.EncodedFields

/-- The OP value of a command's row in R103. -/
def opcode : Instr → Byte
  | .nop => 0x00
  | .keyexp => 0x01
  | .init => 0x02
  | .encEcb => 0x10
  | .decEcb => 0x11
  | .encCbc => 0x12
  | .decCbc => 0x13
  | .pad _ => 0x20
  | .unpad => 0x21
  | .subbytes => 0x30
  | .invsubbytes => 0x31
  | .shiftrows => 0x32
  | .invshiftrows => 0x33
  | .mixcolumns => 0x34
  | .invmixcolumns => 0x35
  | .addrk _ => 0x36
  | .gfmul _ _ => 0x40
  | .sbox _ => 0x41
  | .invsbox _ => 0x42
  | .rcon _ => 0x43

/-- OP is the command's opcode and RSV is 0. -/
def Statement (i : Instr) : Prop := fieldOP (encode i) = opcode i ∧ fieldRSV (encode i) = 0

/-- The two fields of an encoding with given fields. -/
theorem encodeFields_op_rsv (op : Byte) (n : BitVec 5) (a b : Byte) :
    fieldOP (encodeFields op n a b) = op ∧ fieldRSV (encodeFields op n a b) = 0 := by
  constructor
  · apply BitVec.eq_of_getLsbD_eq
    intro i hi
    simp only [fieldOP, encodeFields, BitVec.getLsbD_extractLsb', BitVec.getLsbD_or, BitVec.getLsbD_shiftLeft,
      BitVec.getLsbD_setWidth]
    have h8 : i < 16 := by omega
    have h16 : i < 24 := by omega
    simp [hi, h8, h16, show i < 32 by omega]
  · apply BitVec.eq_of_getLsbD_eq
    intro i hi
    simp only [fieldRSV, encodeFields, BitVec.getLsbD_extractLsb', BitVec.getLsbD_or, BitVec.getLsbD_shiftLeft,
      BitVec.getLsbD_setWidth]
    have e1 : op.getLsbD (13 + i) = false := BitVec.getLsbD_of_ge _ _ (by omega)
    have e2 : n.getLsbD (13 + i - 8) = false := BitVec.getLsbD_of_ge _ _ (by omega)
    simp [e1, e2, show 13 + i < 16 by omega, show 13 + i < 24 by omega]

theorem nop : Statement .nop := encodeFields_op_rsv _ _ _ _
theorem keyexp : Statement .keyexp := encodeFields_op_rsv _ _ _ _
theorem init : Statement .init := encodeFields_op_rsv _ _ _ _
theorem encEcb : Statement .encEcb := encodeFields_op_rsv _ _ _ _
theorem decEcb : Statement .decEcb := encodeFields_op_rsv _ _ _ _
theorem encCbc : Statement .encCbc := encodeFields_op_rsv _ _ _ _
theorem decCbc : Statement .decCbc := encodeFields_op_rsv _ _ _ _
theorem pad (n : BitVec 5) : Statement (.pad n) := encodeFields_op_rsv _ _ _ _
theorem unpad : Statement .unpad := encodeFields_op_rsv _ _ _ _
theorem subbytes : Statement .subbytes := encodeFields_op_rsv _ _ _ _
theorem invsubbytes : Statement .invsubbytes := encodeFields_op_rsv _ _ _ _
theorem shiftrows : Statement .shiftrows := encodeFields_op_rsv _ _ _ _
theorem invshiftrows : Statement .invshiftrows := encodeFields_op_rsv _ _ _ _
theorem mixcolumns : Statement .mixcolumns := encodeFields_op_rsv _ _ _ _
theorem invmixcolumns : Statement .invmixcolumns := encodeFields_op_rsv _ _ _ _
theorem addrk (n : BitVec 5) : Statement (.addrk n) := encodeFields_op_rsv _ _ _ _
theorem gfmul (a b : Byte) : Statement (.gfmul a b) := encodeFields_op_rsv _ _ _ _
theorem sbox (a : Byte) : Statement (.sbox a) := encodeFields_op_rsv _ _ _ _
theorem invsbox (a : Byte) : Statement (.invsbox a) := encodeFields_op_rsv _ _ _ _
theorem rcon (n : BitVec 5) : Statement (.rcon n) := encodeFields_op_rsv _ _ _ _

end Sys2Proof.Laws.EncodedFields
end

