-- ==== Sys2Proof/Laws/Step.lean ====
section
/-! SUPPORT. Everything a step can do, once: the inversion of step. -/

namespace Sys2Proof.Machine

/-- On the core's turn the step is the core's turn on the state without the event. -/
theorem step_of_coreNext {s : State} (h : coreNext s) : step s = coreTurn (popped s) := by
  unfold step advance popped
  cases ha : s.agenda with
  | nil =>
    simp only [List.tail_nil]
    rw [← ha]
  | cons e rest =>
    rw [coreNext, ha] at h
    simp at h
    subst h
    simp [act]

theorem step_of_host {s : State} {t : Transaction} (h : s.agenda.head? = some (.host t)) :
    step s = hostTurn t (popped s) := by
  unfold step advance popped
  cases ha : s.agenda with
  | nil => simp [ha] at h
  | cons e rest => simp [ha] at h; subst h; simp [act]

theorem step_of_assertReset {s : State} {t : Option Transaction} (h : s.agenda.head? = some (.assertReset t)) :
    step s = resetTurn t (popped s) := by
  unfold step advance popped
  cases ha : s.agenda with
  | nil => simp [ha] at h
  | cons e rest => simp [ha] at h; subst h; simp [act]

theorem step_of_releaseReset {s : State} (h : s.agenda.head? = some .releaseReset) :
    step s = .next (leaveReset (popped s)) := by
  unfold step advance popped
  cases ha : s.agenda with
  | nil => simp [ha] at h
  | cons e rest => simp [ha] at h; subst h; simp [act]

/-- Whose turn it is. -/
theorem turn_cases (s : State) :
    coreNext s ∨ (∃ t, s.agenda.head? = some (.host t)) ∨ (∃ t, s.agenda.head? = some (.assertReset t)) ∨
      s.agenda.head? = some .releaseReset := by
  unfold coreNext
  cases s.agenda with
  | nil => simp
  | cons e rest => cases e <;> simp

/-- Everything a step that answers a next state can have done. -/
theorem step_cases {s t : State} (h : step s = .next t) :
    (coreNext s ∧ s.pending = none ∧ t = popped s) ∨
    (∃ w, coreNext s ∧ s.pending = some w ∧ runCommand w (popped s) = .next t) ∨
    (∃ tr, s.agenda.head? = some (.host tr) ∧ s.inReset = false ∧ t = transact tr (popped s)) ∨
    (∃ tr u, s.agenda.head? = some (.assertReset tr) ∧ u.agenda = s.agenda.tail ∧ t = enterReset u) ∨
    (s.agenda.head? = some .releaseReset ∧ t = leaveReset (popped s)) := by
  rcases turn_cases s with hc | ⟨tr, hc⟩ | ⟨tr, hc⟩ | hc
  · rw [step_of_coreNext hc, coreTurn] at h
    cases hp : s.pending with
    | none => simp [hp] at h; exact .inl ⟨hc, rfl, h.symm⟩
    | some w => simp [hp] at h; exact .inr (.inl ⟨w, hc, rfl, h⟩)
  · rw [step_of_host hc, hostTurn] at h
    split at h
    · cases h
    · next hr => exact .inr (.inr (.inl ⟨tr, hc, by simpa using hr, (Host.Outcome.next.inj h).symm⟩))
  · rw [step_of_assertReset hc] at h
    refine .inr (.inr (.inr (.inl ?_)))
    cases tr with
    | none => exact ⟨none, popped s, hc, rfl, (Host.Outcome.next.inj h).symm⟩
    | some tr =>
      simp only [resetTurn] at h
      split at h
      · cases h
      · exact ⟨some tr, _, hc, (cutShort_outside tr _).2.1, (Host.Outcome.next.inj h).symm⟩
  · rw [step_of_releaseReset hc] at h
    exact .inr (.inr (.inr (.inr ⟨hc, (Host.Outcome.next.inj h).symm⟩)))

/-- A run goes on from the next state of its first step. -/
theorem run_succ_of_step {s t : State} (h : step s = .next t) (k : Nat) :
    Sys2Proof.core.run (k + 1) s = Sys2Proof.core.run k t := by
  have h' : Sys2Proof.core.step s = .next t := h
  simp only [Host.Core.run]
  rw [h']

/-- No step faults: the machine has no fault. -/
theorem step_never_faults (s : State) (f : Fault) : step s ≠ .fault f := nomatch f

end Sys2Proof.Machine
end

