-- ==== Sys2Proof/Tests/Slice0.lean ====
section
/-! SUPPORT. Tests on words and values taken from the spec, and for each statement with hypotheses a witness that meets them. -/

namespace Sys2Proof.Tests

open Sys2Proof.Machine Sys2Proof.Reference

set_option Elab.async false

/-! ## WellFormed refuses each kind of ill-formed command (R104 step 4) -/

theorem test_wf_refuses_pad_16 : ¬ WellFormed (.pad 16) := by decide
theorem test_wf_refuses_pad_31 : ¬ WellFormed (.pad 31) := by decide
theorem test_wf_refuses_addrk_11 : ¬ WellFormed (.addrk 11) := by decide
theorem test_wf_refuses_rcon_0 : ¬ WellFormed (.rcon 0) := by decide
theorem test_wf_refuses_rcon_11 : ¬ WellFormed (.rcon 11) := by decide
theorem test_wf_accepts_bounds :
    WellFormed (.pad 0) ∧ WellFormed (.pad 15) ∧ WellFormed (.addrk 0) ∧ WellFormed (.addrk 10) ∧ WellFormed (.rcon 1) ∧
      WellFormed (.rcon 10) := by decide

/-! ## Decoding, each command by a word written out from R101's fields B_A_N,RSV_OP and R103's opcodes -/

theorem test_decode_nop : decode 0b00000000_00000000_00000000_00000000 = .ok .nop := by decide +kernel
theorem test_decode_keyexp : decode 0b00000000_00000000_00000000_00000001 = .ok .keyexp := by decide +kernel
theorem test_decode_init : decode 0b00000000_00000000_00000000_00000010 = .ok .init := by decide +kernel
theorem test_decode_encEcb : decode 0b00000000_00000000_00000000_00010000 = .ok .encEcb := by decide +kernel
theorem test_decode_decEcb : decode 0b00000000_00000000_00000000_00010001 = .ok .decEcb := by decide +kernel
theorem test_decode_encCbc : decode 0b00000000_00000000_00000000_00010010 = .ok .encCbc := by decide +kernel
theorem test_decode_decCbc : decode 0b00000000_00000000_00000000_00010011 = .ok .decCbc := by decide +kernel
theorem test_decode_pad : decode 0b00000000_00000000_00000101_00100000 = .ok (.pad 5) := by decide +kernel
theorem test_decode_unpad : decode 0b00000000_00000000_00000000_00100001 = .ok .unpad := by decide +kernel
theorem test_decode_subbytes : decode 0b00000000_00000000_00000000_00110000 = .ok .subbytes := by decide +kernel
theorem test_decode_invsubbytes : decode 0b00000000_00000000_00000000_00110001 = .ok .invsubbytes := by decide +kernel
theorem test_decode_shiftrows : decode 0b00000000_00000000_00000000_00110010 = .ok .shiftrows := by decide +kernel
theorem test_decode_invshiftrows : decode 0b00000000_00000000_00000000_00110011 = .ok .invshiftrows := by decide +kernel
theorem test_decode_mixcolumns : decode 0b00000000_00000000_00000000_00110100 = .ok .mixcolumns := by decide +kernel
theorem test_decode_invmixcolumns : decode 0b00000000_00000000_00000000_00110101 = .ok .invmixcolumns := by
  decide +kernel
theorem test_decode_addrk : decode 0b00000000_00000000_00001010_00110110 = .ok (.addrk 10) := by decide +kernel
theorem test_decode_gfmul : decode 0b10000011_01010111_00000000_01000000 = .ok (.gfmul 0x57 0x83) := by decide +kernel
theorem test_decode_sbox : decode 0b00000000_01010011_00000000_01000001 = .ok (.sbox 0x53) := by decide +kernel
theorem test_decode_invsbox : decode 0b00000000_11101101_00000000_01000010 = .ok (.invsbox 0xED) := by decide +kernel
theorem test_decode_rcon : decode 0b00000000_00000000_00001001_01000011 = .ok (.rcon 9) := by decide +kernel

/-- The rows of 95_test_vectors.md section 2.7 that are IllegalCommand by steps 1 to 3 of R104. -/
theorem test_decode_refuses :
    [0x00000044, 0x00000014, 0x000000FF, 0x00002020, 0x00011020, 0x00000100, 0x00000099, 0x01530041].all
      (fun w => decode w == .error .illegalCommand) = true := by decide +kernel

/-- The rows of section 2.7 that fail the range check of N. -/
theorem test_decode_range :
    decodeLegal 0x00001036 = .error .illegalCommand ∧ decodeLegal 0x00000B36 = .error .illegalCommand ∧
      decodeLegal 0x00000C43 = .error .illegalCommand ∧ decodeLegal 0x00001F20 = .error .invalidBlockLength ∧
      decodeLegal 0x00000036 = .ok (.addrk 0) := by decide +kernel

theorem test_decodeTableWord : decodeTableWord 32 0x83570040 = some (.gfmul 0x57 0x83) := by decide +kernel

/-! ## One completion of each command, on the values of 95_test_vectors.md -/

/-- What a completion leaves in a field. -/
def after {α : Type} (f : State → α) : Host.Outcome State Fault Refusal → Option α
  | .next t => some (f t)
  | .fault _ => none
  | .refused _ => none

/-- Reset, with DATA given. -/
def withData (d : Group) : State := { State.reset with data := d }

/-- Reset, with a key expanded and DATA given. -/
def withKey (k d : Group) : State :=
  { State.reset with key := k, keylen := 16, data := d, rk := keyExpand (blk k), status := { Status.reset with keyv := true } }

/-- 000102030405060708090a0b0c0d0e0f. -/
def counting : Group := #v[0x00010203, 0x04050607, 0x08090a0b, 0x0c0d0e0f]

/-- 2b7e151628aed2a6abf7158809cf4f3c. -/
def keyB : Group := #v[0x2b7e1516, 0x28aed2a6, 0xabf71588, 0x09cf4f3c]

/-- p1 of SP 800-38A F.2.1, and its ciphertext c1. -/
def plain1 : Group := #v[0x6bc1bee2, 0x2e409f96, 0xe93d7e11, 0x7393172a]
def cipher1 : Group := #v[0x7649abac, 0x8119b246, 0xcee98e9b, 0x12e9197d]

/-- R149, R147: ERR is sticky. -/
theorem test_nop : after (fun t => statusWord t.status)
    (exec .nop { State.reset with status := { Status.reset with err := true, errcode := some .noKey } }) =
      some 0x00000006 := by decide +kernel

/-- Section 2.3, RK[4..7] and RK[40..43] of keyB. -/
theorem test_keyexp : after (fun t => (t.status.keyv, t.rk[4], t.rk[7], t.rk[40], t.rk[43]))
    (exec .keyexp { State.reset with key := keyB, keylen := 16 }) =
      some (true, 0xa0fafe17, 0x2a6c7605, 0xd014f9a8, 0xb6630ca6) := by decide +kernel

/-- Section 2.3: KEYLEN = 0 with a key loaded: "the old key is lost". -/
theorem test_keyexp_bad_length : after (fun t => statusWord t.status)
    (exec .keyexp { withKey keyB counting with keylen := 0 }) = some 0x00000106 := by decide +kernel

/-- R283. -/
theorem test_init : after (fun t => (t.chain, t.blkcnt, t.outlen))
    (exec .init { State.reset with iv := counting, blkcnt := 7, outlen := 3 }) = some (counting, 0, 0) := by decide +kernel

/-- Section 1.3, FIPS-197 Appendix C.1. -/
theorem test_encEcb : after (fun t => (t.data, t.blkcnt))
    (exec .encEcb (withKey counting #v[0x00112233, 0x44556677, 0x8899aabb, 0xccddeeff])) =
      some (#v[0x69c4e0d8, 0x6a7b0430, 0xd8cdb780, 0x70b4c55a], 1) := by decide +kernel

/-- Section 1.1, the source's vector. -/
theorem test_encEcb_kung_fu : after State.data
    (exec .encEcb (withKey #v[0x54686174, 0x73206d79, 0x204b756e, 0x67204675]
      #v[0x54776f20, 0x4f6e6520, 0x4e696e65, 0x2054776f])) =
      some #v[0x29c3505f, 0x571420f6, 0x402299b3, 0x1a02d73a] := by decide +kernel

/-- Section 2.5, the all zero key and block. -/
theorem test_decEcb : after State.data (exec .decEcb (withKey zeroGroup zeroGroup)) =
    some #v[0x140f0f10, 0x11b5223d, 0x79587717, 0xffd9ec3a] := by decide +kernel

/-- R266: the counter saturates. -/
theorem test_decEcb_saturates : after State.blkcnt
    (exec .decEcb { withKey zeroGroup zeroGroup with blkcnt := 0xFFFFFFFF }) = some 0xFFFFFFFF := by decide +kernel

/-- Section 2.6: DATA = CHAIN = c1. -/
theorem test_encCbc : after (fun t => (t.data, t.chain))
    (exec .encCbc { withKey keyB plain1 with chain := counting }) = some (cipher1, cipher1) := by decide +kernel

/-- Section 2.6: DATA = p1 and CHAIN = c1. -/
theorem test_decCbc : after (fun t => (t.data, t.chain))
    (exec .decCbc { withKey keyB cipher1 with chain := counting }) = some (plain1, cipher1) := by decide +kernel

/-- Section 2.6, PAD 5. -/
theorem test_pad : after State.data
    (exec (.pad 5) (withData #v[0x41424344, 0x45464748, 0x494a4b4c, 0x4d4e4f50])) =
      some #v[0x41424344, 0x450b0b0b, 0x0b0b0b0b, 0x0b0b0b0b] := by decide +kernel

/-- Section 2.6, PAD 16. -/
theorem test_pad_16 : after (fun t => (t.data, statusWord t.status)) (exec (.pad 16) (withData counting)) =
    some (counting, 0x00000306) := by decide +kernel

/-- Section 2.6: only the final byte is checked. -/
theorem test_unpad : after (fun t => (t.outlen, statusWord t.status))
    (exec .unpad { withData #v[0, 0, 0, 0x05050701] with blkcnt := 1 }) = some (15, 0x00000002) := by decide +kernel

/-- Section 2.6: p > 16 * BLKCNT = 0. -/
theorem test_unpad_empty : after (fun t => statusWord t.status)
    (exec .unpad (withData #v[0, 0, 0, 0x00000010])) = some 0x00000206 := by decide +kernel

/-! The block transforms on 000102030405060708090a0b0c0d0e0f, section 2.4. -/

theorem test_subbytes : after State.data (exec .subbytes (withData counting)) =
    some #v[0x637c777b, 0xf26b6fc5, 0x3001672b, 0xfed7ab76] := by decide +kernel
theorem test_invsubbytes : after State.data (exec .invsubbytes (withData counting)) =
    some #v[0x52096ad5, 0x3036a538, 0xbf40a39e, 0x81f3d7fb] := by decide +kernel
theorem test_shiftrows : after State.data (exec .shiftrows (withData counting)) =
    some #v[0x00050a0f, 0x04090e03, 0x080d0207, 0x0c01060b] := by decide +kernel
theorem test_invshiftrows : after State.data (exec .invshiftrows (withData counting)) =
    some #v[0x000d0a07, 0x04010e0b, 0x0805020f, 0x0c090603] := by decide +kernel
theorem test_mixcolumns : after State.data (exec .mixcolumns (withData counting)) =
    some #v[0x02070005, 0x06030401, 0x0a0f080d, 0x0e0b0c09] := by decide +kernel
theorem test_mixcolumns_columns : after State.data
    (exec .mixcolumns (withData #v[0xdb135345, 0xf20a225c, 0xd4d4d4d5, 0x2d26314c])) =
      some #v[0x8e4da1bc, 0x9fdc589d, 0xd5d5d7d6, 0x4d7ebdf8] := by decide +kernel
theorem test_invmixcolumns : after State.data (exec .invmixcolumns (withData counting)) =
    some #v[0x0a0f080d, 0x0e0b0c09, 0x02070005, 0x06030401] := by decide +kernel

/-- Section 2.4, ADDRK 10 on DATA = 0. -/
theorem test_addrk : after State.data (exec (.addrk 10) (withKey keyB zeroGroup)) =
    some #v[0xd014f9a8, 0xc9ee2589, 0xe13f0cc8, 0xb6630ca6] := by decide +kernel

/-- Section 2.4: ADDRK 11 is IllegalCommand, "since the range check comes before the key check". -/
theorem test_addrk_11 : after (fun t => statusWord t.status) (exec (.addrk 11) State.reset) = some 0x00000506 := by
  decide +kernel

/-! The primitives, section 3.6. -/

theorem test_gfmul : after State.result (exec (.gfmul 0x57 0x83) State.reset) = some 0xC1 := by decide +kernel
theorem test_gfmul_square : after State.result (exec (.gfmul 0x80 0x80) State.reset) = some 0x9A := by decide +kernel
theorem test_sbox : after State.result (exec (.sbox 0x53) State.reset) = some 0xED := by decide +kernel
theorem test_sbox_ff : after State.result (exec (.sbox 0xFF) State.reset) = some 0x16 := by decide +kernel
theorem test_invsbox : after State.result (exec (.invsbox 0xED) State.reset) = some 0x53 := by decide +kernel
theorem test_invsbox_ff : after State.result (exec (.invsbox 0xFF) State.reset) = some 0x7D := by decide +kernel
theorem test_rcon : after State.result (exec (.rcon 9) State.reset) = some 0x1B := by decide +kernel
theorem test_rcon_0 : after (fun t => (t.result, statusWord t.status))
    (exec (.rcon 0) { State.reset with result := 0x1B }) = some (0x1B, 0x00000506) := by decide +kernel

/-! ## Steps -/

/-- The first step after a placed word runs it (section 3.6). -/
theorem test_withFetchWord : after (fun t => (t.result, t.cmd, statusWord t.status))
    (step (State.reset.withFetchWord 32 0x83570040)) = some (0xC1, 0x83570040, 0x00000002) := by decide +kernel

/-- Section 3.4: the word 0x99, and CMD keeps it. -/
theorem test_illegal_word : after (fun t => (t.cmd, statusWord t.status))
    (step (State.reset.withFetchWord 32 0x99)) = some (0x99, 0x00000506) := by decide +kernel

/-- A host's CMD write issues, and the core's turn after it completes (R140, R143): CMD write of GFMUL 0x57, 0x83. -/
theorem test_host_issues : after (fun t => (t.result, statusWord t.status))
    (Sys2Proof.core.run 2 { State.reset with agenda := [.host (.write (at' 0) 4 0x83570040), .core] }) =
      some (0xC1, 0x00000002) := by
  have h : step { State.reset with agenda := [.host (.write (at' 0) 4 0x83570040), .core] } =
      .next (respond .writeOk (issue 0x83570040 { State.reset with agenda := [.core] })) := by
    have r : route (at' 0) = some 0 := route_pBase (by decide)
    simp only [step, advance, act, hostTurn, transact, access, r]
    rfl
  rw [run_succ_of_step h]
  decide +kernel

/-! ## Witnesses -/

/-- Reset with the word `w` pending and the agenda `a`. -/
def pendingWord (w : Word) (a : List Event) : State := { issue w State.reset with agenda := a }

theorem inv_pendingWord (w : Word) (a : List Event) : Inv (pendingWord w a) where
  busy_pending := rfl
  pending_cmd := by intro v h; exact Option.some.inj h
  busy_done := fun _ => rfl
  keyv_schedule := by intro h; cases h
  outlen_le := Nat.zero_le 15
  in_reset := by intro h; cases h

theorem witness_DecodeEncodeRoundTrip :
    WellFormed (.pad 15) ∧ WellFormed (.addrk 10) ∧ WellFormed (.rcon 1) ∧ WellFormed (.rcon 10) ∧
    ¬ WellFormed (.pad 16) ∧ ¬ WellFormed (.addrk 11) ∧ ¬ WellFormed (.rcon 0) ∧ ¬ WellFormed (.rcon 11) := by decide

theorem witness_DecodedWordIsItsEncoding :
    decode 0x00000000 = .ok .nop ∧ decode 0x00001F20 = .ok (.pad 31) ∧ decode 0xFFFF0040 = .ok (.gfmul 0xFF 0xFF) := by
  decide +kernel

theorem witness_StepRunsDecodedCommand :
    coreNext (pendingWord 0x21 []) ∧ coreNext (pendingWord 0x21 [.core]) ∧ (pendingWord 0x21 [.core]).pending = some 0x21 ∧
      decode 0x21 = .ok .unpad :=
  ⟨.inl rfl, .inr rfl, rfl, by decide +kernel⟩

/-- One word for each clause of R105: the OP, the RSV, a lone N, A and B. -/
theorem witness_IllegalWordsRaiseIllegalCommand :
    ∀ w ∈ ([0x00000044, 0x00002020, 0x00000100, 0x00010010, 0x01530041] : List Word),
      coreNext (pendingWord w [.core]) ∧ (pendingWord w [.core]).pending = some w ∧
        ∀ o, opInfo (fieldOP w) = some o → ¬ unusedZero o w := by
  have opRsv : ∀ w ∈ ([0x00000044, 0x00002020, 0x00000100, 0x00010010, 0x01530041] : List Word),
      ∀ o, opInfo (fieldOP w) = some o →
        ¬ (fieldRSV w = 0 ∧ (o.usesN = false → fieldN w = 0) ∧ (o.usesA = false → fieldA w = 0) ∧
          (o.usesB = false → fieldB w = 0)) := by
    intro w hw o ho
    fin_cases hw
    · have : opInfo (fieldOP 0x00000044) = none := rfl
      rw [this] at ho; cases ho
    · rintro ⟨h, -⟩; exact absurd h (by decide)
    · rintro ⟨-, h, -⟩
      cases ho; exact absurd (h rfl) (by decide)
    · rintro ⟨-, -, h, -⟩
      cases ho; exact absurd (h rfl) (by decide)
    · rintro ⟨-, -, -, h⟩
      cases ho; exact absurd (h rfl) (by decide)
  exact fun w hw => ⟨.inr rfl, rfl, opRsv w hw⟩

theorem witness_FailedCommandChangesOnlyStatus :
    exec (.pad 16) State.reset = .next (failed .invalidBlockLength State.reset) ∧
      (failed .invalidBlockLength State.reset).status.errcode = some .invalidBlockLength ∧
    (∃ t, exec .keyexp State.reset = .next t ∧ t.status.errcode = some .invalidKeyLength) :=
  ⟨rfl, rfl, _, rfl, rfl⟩

/-- NOP meets the premise of every clause. -/
theorem witness_CommandsWriteOnlyTheirRegisters :
    exec .nop State.reset = .next (succeeded State.reset) ∧ writesData .nop = false ∧ writesChain .nop = false ∧
      writesResult .nop = false ∧ writesOutlen .nop = false ∧ countsBlock .nop = false ∧ Instr.nop ≠ .init ∧
      Instr.nop ≠ .keyexp := ⟨rfl, by decide⟩

theorem witness_StatusAfterEveryCompletion : Instr.nop ≠ .keyexp := by decide

theorem witness_GmulFieldLaws : (0x01 : Byte) ≠ 0 ∧ (0xFF : Byte) ≠ 0 := by decide

/-- Section 2.1: 0x53 and 0xCA are inverses. -/
theorem witness_SboxIsAffineOfInverse : IsInv 0 0 ∧ IsInv 0x53 0xCA ∧ IsInv 0xCA 0x53 :=
  ⟨.inl ⟨rfl, rfl⟩, .inr (by decide +kernel), .inr (by decide +kernel)⟩

theorem witness_RconReadsRoundConstants :
    (∀ n ∈ ([1, 2, 10] : List (BitVec 5)), 1 ≤ n.toNat ∧ n.toNat ≤ 10) ∧
    (∀ n ∈ ([2, 10] : List (BitVec 5)), 1 < n.toNat) ∧ (1 : BitVec 5).toNat = 1 ∧
    (∀ n ∈ ([0, 11, 31] : List (BitVec 5)), n.toNat = 0 ∨ 10 < n.toNat) := by decide

theorem witness_KeyexpExpandsKey :
    ({ State.reset with keylen := 16 } : State).keylen = 16 ∧ (4 ≤ 4 ∧ 4 < 44) ∧ (4 ≤ 43 ∧ 43 < 44) := by decide

theorem witness_KeyexpRejectsOtherLengths :
    ∀ l ∈ ([0, 15, 17, 32, 255] : List Byte), ({ State.reset with keylen := l } : State).keylen ≠ 16 := by decide

theorem witness_MixColumnsMultipliesByMatrix :
    (blk counting)[0] = 0x00 ∧ (blk counting)[1] = 0x01 ∧ (blk counting)[2] = 0x02 ∧ (blk counting)[3] = 0x03 ∧
    (blk counting)[12] = 0x0C ∧ (blk counting)[13] = 0x0D ∧ (blk counting)[14] = 0x0E ∧ (blk counting)[15] = 0x0F := by
  decide +kernel

/-- KEYV = 1, the hypothesis of AddrkXorsRoundKeyWords, EncEcbRunsItsRounds, DecEcbRunsItsRounds, EcbRoundTrip,
EncCbcChainsCiphertext, DecCbcKeepsCiphertext, and with `n` of AddrkXorsRoundKeyWords. -/
theorem witness_AddrkXorsRoundKeyWords :
    (withKey keyB plain1).status.keyv = true ∧ (0 : BitVec 5).toNat ≤ 10 ∧ (10 : BitVec 5).toNat ≤ 10 := by decide
theorem witness_EncEcbRunsItsRounds : (withKey keyB plain1).status.keyv = true := rfl
theorem witness_DecEcbRunsItsRounds : (withKey keyB cipher1).status.keyv = true := rfl
theorem witness_EcbRoundTrip : (withKey keyB plain1).status.keyv = true := rfl
theorem witness_EncCbcChainsCiphertext : (withKey keyB plain1).status.keyv = true := rfl
theorem witness_DecCbcKeepsCiphertext : (withKey keyB cipher1).status.keyv = true := rfl

theorem witness_KeyCommandsRaiseNoKey :
    10 < (11 : BitVec 5).toNat ∧ 10 < (31 : BitVec 5).toNat ∧ State.reset.status.keyv = false ∧
      (0 : BitVec 5).toNat ≤ 10 ∧ (10 : BitVec 5).toNat ≤ 10 := by decide

/-- With the counter at its two ends. -/
theorem witness_CipherCommandsCountBlocks :
    countsBlock .encEcb = true ∧ countsBlock .decEcb = true ∧ countsBlock .encCbc = true ∧ countsBlock .decCbc = true ∧
      (withKey keyB plain1).blkcnt = 0 ∧ (withKey keyB plain1).status.keyv = true ∧
      ({ withKey keyB plain1 with blkcnt := 0xFFFFFFFF } : State).status.keyv = true := by decide

theorem witness_PadFillsWithCount :
    (0 : BitVec 5).toNat ≤ 15 ∧ (15 : BitVec 5).toNat ≤ 15 ∧ 16 ≤ (16 : BitVec 5).toNat ∧ 16 ≤ (31 : BitVec 5).toNat ∧
      (14 : Fin 16).val < (15 : BitVec 5).toNat ∧ (15 : BitVec 5).toNat ≤ (15 : Fin 16).val := by decide

/-- The final byte at its bounds, with BLKCNT at 0 and 1 (section 2.6). -/
theorem witness_UnpadChecksFinalByte :
    (1 = (#v[0, 0, 0, 1] : Group)[3].toNat % 256 ∧ 1 ≤ 1 ∧ 1 ≤ 16 ∧ 1 ≤ 16 * (1 : Word).toNat) ∧
    (16 = (#v[0, 0, 0, 0x10] : Group)[3].toNat % 256 ∧ 1 ≤ 16 ∧ 16 ≤ 16 ∧ 16 ≤ 16 * (1 : Word).toNat) ∧
    0 = (#v[0, 0, 0, 0] : Group)[3].toNat % 256 ∧
    (17 = (#v[0, 0, 0, 0x11] : Group)[3].toNat % 256 ∧ 16 < 17) ∧
    (1 = (#v[0, 0, 0, 1] : Group)[3].toNat % 256 ∧ 16 * (0 : Word).toNat < 1) := by decide +kernel

theorem witness_CbcPaddedMessageRoundTrip :
    (withKey keyB plain1).status.keyv = true ∧ (0 : BitVec 5).toNat ≤ 15 ∧ (15 : BitVec 5).toNat ≤ 15 ∧
      (14 : Fin 16).val < (15 : BitVec 5).toNat := by decide

theorem witness_IdleReadsFollowRegisterMap :
    State.reset.status.busy = false ∧ ∀ o ∈ [0x060, 0x0FC, 0x1B0, 0xFFC], reservedOffset o := by
  refine ⟨rfl, ?_⟩
  intro o ho; fin_cases ho <;> (unfold reservedOffset; decide)

theorem witness_BusyReadsOfResultsAreFree :
    (pendingWord 0x10 []).status.busy = true ∧
    (∀ o ∈ [0x010, 0x018, 0x030, 0x03C, 0x050, 0x05C, 0x100, 0x1AC], o < 4096 ∧ o % 4 = 0 ∧ resultOffset o) ∧
    (∀ o ∈ [0x000, 0x004, 0x00C, 0x01C, 0x02C, 0x040, 0x04C, 0x060, 0x0FC, 0x1B0, 0xFFC],
      o < 4096 ∧ o % 4 = 0 ∧ ¬ resultOffset o) := by
  refine ⟨rfl, ?_, ?_⟩ <;> intro o ho <;> fin_cases ho <;> (unfold resultOffset; decide)

theorem witness_BadAccessIsBusErrorOnly :
    (0 < 4096 ∧ (1 ≠ 4 ∨ 0 % 4 ≠ 0)) ∧ (1 < 4096 ∧ (4 ≠ 4 ∨ 1 % 4 ≠ 0)) ∧ (4095 < 4096 ∧ (4 ≠ 4 ∨ 4095 % 4 ≠ 0)) ∧
      (0 < 4096 ∧ (4 = 4 ∧ 0 % 4 = 0)) ∧ (4092 < 4096 ∧ (4 = 4 ∧ 4092 % 4 = 0)) := by decide

theorem witness_ProtectedWritesDropWhileBusy :
    (pendingWord 0x10 []).status.busy = true ∧ ∀ o ∈ [0x000, 0x00C, 0x020, 0x04C], protectedOffset o := by
  refine ⟨rfl, ?_⟩
  intro o ho; fin_cases ho <;> (unfold protectedOffset; decide)

theorem witness_IdleWriteReadsBack :
    State.reset.status.busy = false ∧ (∀ o ∈ [0x00C, 0x020, 0x04C], protectedOffset o ∧ o ≠ 0x000) ∧
      (∀ o' ∈ [0x000, 0x050, 0xFFC], o' < 4096 ∧ o' % 4 = 0 ∧ o' ≠ 0x00C) := by
  refine ⟨rfl, ?_, by decide⟩
  intro o ho; fin_cases ho <;> (unfold protectedOffset; decide)

theorem witness_CmdWriteIssues :
    State.reset.status.busy = false ∧ (pendingWord 0x10 []).status.busy = true := ⟨rfl, rfl⟩

theorem witness_ReservedAndReadOnlyIgnoreWrites :
    (∀ o ∈ [0x060, 0x0FC, 0x1B0, 0xFFC], reservedOffset o) ∧
    (∀ o ∈ [0x010, 0x01C, 0x050, 0x05C, 0x100, 0x1AC], readOnlyOffset o) := by
  constructor <;> intro o ho <;> fin_cases ho <;> (first | unfold reservedOffset | unfold readOnlyOffset) <;> decide

/-- A pending command that completes, and one that the host leaves pending. -/
theorem witness_StepKeepsInvariant :
    Inv (pendingWord 0x21 [.core]) ∧ (∃ t, step (pendingWord 0x21 [.core]) = .next t) ∧
    Inv (pendingWord 0x21 [.releaseReset]) ∧ (∃ t, step (pendingWord 0x21 [.releaseReset]) = .next t) :=
  ⟨inv_pendingWord _ _, ⟨_, rfl⟩, inv_pendingWord _ _, ⟨_, rfl⟩⟩

theorem witness_ResetHasInvariant : (0x01C < 4096 ∧ 0x01C % 4 = 0) ∧ (0xFFC < 4096 ∧ 0xFFC % 4 = 0) := by decide

/-- Two states that differ in RK, one pair that steps on and one that is refused. -/
theorem witness_HiddenScheduleNotObservable :
    SameButHiddenRk (pendingWord 0x10 []) { pendingWord 0x10 [] with rk := keyExpand (blk keyB) } ∧
    (∃ t, step (pendingWord 0x10 []) = .next t) ∧
    SameButHiddenRk { pendingWord 0x10 [.host (.read 0 4)] with inReset := true }
      { pendingWord 0x10 [.host (.read 0 4)] with inReset := true, rk := keyExpand (blk keyB) } ∧
    step { pendingWord 0x10 [.host (.read 0 4)] with inReset := true } = .refused .transactionDuringReset ∧
    (pendingWord 0x10 []).rk ≠ keyExpand (blk keyB) :=
  ⟨⟨rfl, .inl rfl⟩, ⟨_, rfl⟩, ⟨rfl, .inl rfl⟩, rfl, by decide +kernel⟩

theorem witness_PendingCommandInputsFrozen :
    (pendingWord 0x10 []).status.busy = true ∧
      ∃ t, t = [.write (at' 0x030) 4 0xdeadbeef, .read (at' 0x004) 4].foldl (fun u tr => transact tr u) (pendingWord 0x10 []) :=
  ⟨rfl, _, rfl⟩

/-- With the agenda used up, and with a host transaction before the core's turn. -/
theorem witness_PendingCommandEnds :
    Safe (pendingWord 0x10 []) ∧ (pendingWord 0x10 []).pending ≠ none ∧
      Safe (pendingWord 0x10 [.host (.read 0 4), .assertReset none, .releaseReset, .host (.read 0 4)]) := by
  refine ⟨rfl, ?_, rfl⟩
  intro h; cases h

theorem witness_SafeStatesStepOn :
    Safe State.reset ∧ Safe { State.reset with agenda := [.host (.read 0 4), .assertReset (some (.read 0 4)), .releaseReset] } :=
  ⟨rfl, rfl⟩

/-- The two kinds of refused step. -/
theorem witness_SafeStatesStepOn_refused :
    step { State.reset with inReset := true, agenda := [.host (.read 0 4)] } = .refused .transactionDuringReset ∧
    step { State.reset with inReset := true, agenda := [.assertReset (some (.read 0 4))] } =
      .refused .transactionDuringReset := ⟨rfl, rfl⟩

theorem witness_ResetOverwritesEverything :
    (pendingWord 0x10 [.assertReset none, .releaseReset, .core]).agenda = .assertReset none :: .releaseReset :: [.core] ∧
    (pendingWord 0x10 [.assertReset (some (.read 0 4)), .releaseReset]).agenda =
      .assertReset (some (.read 0 4)) :: .releaseReset :: [] ∧
    (pendingWord 0x10 [.assertReset (some (.read 0 4)), .releaseReset]).inReset = false := ⟨rfl, rfl, rfl⟩

theorem witness_OnlyCompletionOrResetEndsPending :
    Inv (pendingWord 0 [.core]) ∧ (pendingWord 0 [.core]).pending = some 0 ∧
      ∃ t, step (pendingWord 0 [.core]) = .next t ∧ t.pending ≠ some 0 :=
  ⟨inv_pendingWord _ _, rfl, _, rfl, by intro h; cases h⟩

/-- A completion with IE = 1, and a CTRL write that sets IE while DONE = 1. -/
theorem witness_IrqRisesOnlyOnCompletionOrEnable :
    (∃ t, step { pendingWord 0 [.core] with ie := true } = .next t ∧ irq { pendingWord 0 [.core] with ie := true } = false ∧
      irq t = true) ∧
    (∃ t, step { State.reset with status := { Status.reset with done := true },
                                  agenda := [.host (.write (at' 0x008) 4 1)] } = .next t ∧
      irq { State.reset with status := { Status.reset with done := true },
                             agenda := [.host (.write (at' 0x008) 4 1)] } = false ∧ irq t = true) := by
  refine ⟨⟨_, rfl, rfl, rfl⟩, ?_⟩
  have r : route (at' 0x008) = some 0x008 := route_pBase (by decide)
  refine ⟨_, rfl, rfl, ?_⟩
  simp only [transact, access, r]
  rfl

/-- The premises of its other clauses. -/
theorem witness_IrqRisesOnlyOnCompletionOrEnable_clauses :
    coreNext (pendingWord 0 []) ∧ (pendingWord 0 []).pending ≠ none ∧
    ({ State.reset with status := { Status.reset with done := true } } : State).status.done = true ∧
    (0x00000001 : Word).getLsbD 0 = true ∧ (0x00000002 : Word).getLsbD 1 = true := by
  refine ⟨.inl rfl, ?_, rfl, by decide, by decide⟩
  intro h; cases h

/-- A KEYEXP that completes, and a reset that draws a word other than the one RK held. -/
theorem witness_ScheduleChangesOnlyByKeyexp :
    (∃ t, step { pendingWord 1 [.core] with keylen := 16, key := keyB } = .next t ∧
      t.rk ≠ ({ pendingWord 1 [.core] with keylen := 16, key := keyB } : State).rk) ∧
    (∃ s t, s.agenda.head? = some (.assertReset none) ∧ step s = .next t ∧ t.rk ≠ s.rk) := by
  constructor
  · refine ⟨_, rfl, ?_⟩
    decide +kernel
  · refine ⟨{ pendingWord 0 [.assertReset none] with rk := Vector.ofFn fun _ => ~~~ Config.freeWord 0 }, _, rfl, rfl, ?_⟩
    intro h
    have h0 : Config.freeWord 0 = ~~~ Config.freeWord 0 := by
      have e := congrArg (fun v : Schedule => v[0]) h
      simp only [enterReset_rk, drawnSchedule, Vector.getElem_ofFn] at e
      exact e
    have b := congrArg (fun w : Word => w.getLsbD 0) h0
    simp at b

theorem witness_CompletionAfterSameCycleWrite :
    ∀ o ∈ [0x004, 0x000, 0x00C, 0x020, 0x04C],
      Inv (pendingWord 0x10 [.host (.write (at' o) 4 0xE), .core]) ∧
      (pendingWord 0x10 [.host (.write (at' o) 4 0xE), .core]).inReset = false ∧
      (pendingWord 0x10 [.host (.write (at' o) 4 0xE), .core]).pending = some 0x10 ∧ (o = 0x004 ∨ protectedOffset o) ∧
      (pendingWord 0x10 [.host (.write (at' o) 4 0xE), .core]).agenda = .host (.write (at' o) 4 0xE) :: .core :: [] := by
  intro o ho
  refine ⟨inv_pendingWord _ _, rfl, rfl, ?_, rfl⟩
  fin_cases ho <;> (unfold protectedOffset; decide)

/-- A routed and an unrouted transaction, the addresses on both sides of the window, and an idle core. -/
theorem witness_HostTurnIsItsAccess :
    ({ State.reset with agenda := [.host (.write (at' 0x00C) 4 16)] } : State).agenda =
      .host (.write (at' 0x00C) 4 16) :: [] ∧ State.reset.inReset = false ∧ at' 4096 ≤ at' 4096 ∧
    coreNext State.reset ∧ State.reset.pending = none := ⟨rfl, rfl, Nat.le_refl _, .inl rfl, rfl⟩

/-- Section 2.7: each code of R321 as STATUS reads it after the error. -/
theorem test_status_codes :
    [some .invalidKeyLength, some .invalidPadding, some .invalidBlockLength, some .noKey, some .illegalCommand].map
      (fun e => statusWord { busy := false, done := true, err := true, ovr := false, keyv := false, errcode := e }) =
        [0x106, 0x206, 0x306, 0x406, 0x506] := by decide +kernel

/-- Section 3.4: BUSY, OVR and KEYV. -/
theorem test_status_busy :
    statusWord { busy := true, done := false, err := false, ovr := true, keyv := true, errcode := none } = 0x19 := by
  decide +kernel

/-- R201 and R202's examples. -/
theorem test_rotWord_subWord : rotWord 0x09CF4F3C = 0xCF4F3C09 ∧ subWord 0xCF4F3C09 = 0x8A84EB01 := by decide +kernel

end Sys2Proof.Tests
end

namespace Sys2Proof.Machine

/-- R12: bit k of byte j of a word is bit 24 - 8j + k of the word. -/
theorem wordByte_getLsbD (w : Word) (j : Fin 4) (k : Fin 8) :
    (wordByte w j).getLsbD k.val = w.getLsbD (24 - 8 * j.val + k.val) := by
  simp [wordByte]

/-- Settles O33: the two round trips, and R12's bit numbering read off byte i of the group. -/
theorem blockBytesAreBigEndian : Obligations.BlockBytesAreBigEndian := by
  unfold Obligations.BlockBytesAreBigEndian
  intro g b
  refine ⟨ofBlock_blk g, blk_ofBlock b, fun i k => ?_⟩
  rw [Fin.getElem_fin, blk_getElem, wordByte_getLsbD]

end Sys2Proof.Machine

namespace Sys2Proof.Machine

open Sys2Proof.Reference

/-! ## Aligned 32-bit transactions -/

/-- An aligned 32-bit read returns the register's defined value and changes nothing, but for the results while BUSY = 1 (R74, R89). -/
theorem access_read_defined {o : Nat} (ho : o < 4096) (ha : o % 4 = 0) (s : State)
    (h : s.status.busy = false ∨ (regAt (BitVec.ofNat 12 o)).unspecifiedWhileBusy = false) :
    access (.read (at' o) 4) s = (.readOk (readReg (regAt (BitVec.ofNat 12 o)) s), s) := by
  have hd : (s.status.busy && (regAt (BitVec.ofNat 12 o)).unspecifiedWhileBusy) = false := by
    rcases h with h | h <;> simp [h]
  simp [access, at', route_pBase ho, busRead, decoded_ofNat ho, ha, hd]

/-- An aligned 32-bit write is the write of its register (R75). -/
theorem access_write_aligned {o : Nat} (ho : o < 4096) (ha : o % 4 = 0) (v : Word) (s : State) :
    access (.write (at' o) 4 v) s = (.writeOk, writeReg (regAt (BitVec.ofNat 12 o)) v s) := by
  simp [access, at', route_pBase ho, busWrite, decoded_ofNat ho, ha]

theorem access_read_status (s : State) :
    access (.read (at' 0x004) 4) s = (.readOk (statusWord s.status), s) :=
  access_read_defined (by decide) rfl s (.inr rfl)

theorem access_read_ctrl (s : State) :
    access (.read (at' 0x008) 4) s = (.readOk ((flagBit s.ie).setWidth 32), s) :=
  access_read_defined (by decide) rfl s (.inr rfl)

theorem access_write_status (v : Word) (s : State) :
    access (.write (at' 0x004) 4 v) s = (.writeOk, acknowledge v s) :=
  access_write_aligned (by decide) rfl v s

theorem access_write_ctrl (v : Word) (s : State) :
    access (.write (at' 0x008) 4 v) s = (.writeOk, { s with ie := v.getLsbD 0 }) :=
  access_write_aligned (by decide) rfl v s

/-- An aligned offset that is mapped to a register is that register's offset. -/
theorem toNat_of_regAt {off : Offset} (ha : off.toNat % 4 = 0) {o : Nat} (ho : regOffset (regAt off) = some o) :
    off.toNat = o := by
  rcases regOffset_regAt off ha with h | ⟨h, -⟩
  · exact Option.some.inj (h.symm.trans ho)
  · rw [h] at ho; cases ho

/-- The protected registers by their offsets: CMD, KEYLEN and the three groups KEY, DATA and IV (R72, R88). -/
theorem protectedOffset_cases {o : Nat} (h : protectedOffset o) :
    o = 0x000 ∨ o = 0x00C ∨ ∃ n : Fin 4, o = 0x020 + 4 * n.val ∨ o = 0x030 + 4 * n.val ∨ o = 0x040 + 4 * n.val := by
  obtain ⟨ha, h | h | ⟨hl, hu⟩⟩ := h
  · exact .inl h
  · exact .inr (.inl h)
  · exact .inr (.inr ⟨⟨o / 4 % 4, by omega⟩, by dsimp only; omega⟩)

theorem protectedOffset_lt {o : Nat} (h : protectedOffset o) : o < 4096 := by
  obtain ⟨-, h | h | h⟩ := h <;> omega

/-- A write to a protected register while BUSY = 1 is an overrun, whichever register it is (R88). -/
theorem access_write_protected_busy {o : Nat} (h : protectedOffset o) (v : Word) {s : State} (hb : s.status.busy = true) :
    access (.write (at' o) 4 v) s = (.writeOk, overrun s) := by
  rw [access_write_aligned (protectedOffset_lt h) h.1]
  refine congrArg (Prod.mk _) ?_
  rcases protectedOffset_cases h with rfl | rfl | ⟨n, rfl | rfl | rfl⟩
  · exact protectedWrite_busy hb _
  · exact protectedWrite_busy hb _
  · rw [regAt_key]; exact protectedWrite_busy hb _
  · rw [regAt_data]; exact protectedWrite_busy hb _
  · rw [regAt_iv]; exact protectedWrite_busy hb _

/-! ## STATUS as it reads -/

/-- Bit i of STATUS (R24): BUSY, DONE, ERR, OVR and KEYV, three reserved bits, and ERRCODE from bit 8 on, whose bits from 4 on are 0. -/
def statusBit (st : Status) : Nat → Bool
  | 0 => st.busy
  | 1 => st.done
  | 2 => st.err
  | 3 => st.ovr
  | 4 => st.keyv
  | 5 => false
  | 6 => false
  | 7 => false
  | i + 8 => (errcodeBits st.errcode).getLsbD i

theorem statusWord_getLsbD (st : Status) (i : Nat) : (statusWord st).getLsbD i = statusBit st i := by
  unfold statusBit
  split <;> simp only [statusWord, flagBit, BitVec.getLsbD_append, BitVec.getLsbD_ofBool] <;> simp
  exact BitVec.lt_of_getLsbD

theorem statusWord_errcode (st : Status) : (statusWord st).extractLsb' 8 4 = errcodeBits st.errcode := by
  apply BitVec.eq_of_getLsbD_eq
  intro i hi
  rw [BitVec.getLsbD_extractLsb', statusWord_getLsbD, Nat.add_comm]
  simp [hi, statusBit]

/-- The model's codes are R321's. -/
theorem errcodeBits_toNat (e : Option CommandError) : (errcodeBits e).toNat = errcodeValue e := by
  rcases e with _ | e
  · rfl
  · cases e <;> rfl

/-- The reserved bits 7:5 and 31:12 read 0. -/
theorem statusWord_reserved (st : Status) :
    (statusWord st).extractLsb' 5 3 = 0 ∧ (statusWord st).extractLsb' 12 20 = 0 := by
  constructor <;> apply BitVec.eq_of_getLsbD_eq <;> intro i hi <;>
    rw [BitVec.getLsbD_extractLsb', statusWord_getLsbD]
  · have : statusBit st (5 + i) = false := by interval_cases i <;> rfl
    simp [this]
  · have : statusBit st (12 + i) = false := by
      rw [show 12 + i = (4 + i) + 8 by omega]
      exact BitVec.getLsbD_of_ge _ _ (by omega)
    simp [this]

/-- Settles O53, field by field from the bits of STATUS. -/
theorem statusReadsItsFields : Obligations.StatusReadsItsFields := by
  unfold Obligations.StatusReadsItsFields
  intro s
  have bit := statusWord_getLsbD s.status
  obtain ⟨low, high⟩ := statusWord_reserved s.status
  refine ⟨_, access_read_status s, bit 0, bit 1, bit 2, bit 3, bit 4, low, ?_, high⟩
  rw [statusWord_errcode, errcodeBits_toNat]

/-- A STATUS write clears the bits of STATUS as it reads. -/
theorem statusWord_cleared (st : Status) (v : Word) :
    statusWord (st.cleared v) = statusWord st &&& ~~~(v &&& 0x0000000E) := by
  apply BitVec.eq_of_getLsbD_eq
  intro i hi
  simp only [BitVec.getLsbD_and, BitVec.getLsbD_not, hi, decide_true, Bool.true_and, statusWord_getLsbD]
  unfold statusBit
  split
  case h_9 i =>
    have hlt : 14 < 2 ^ (i + 8) :=
      Nat.lt_of_lt_of_le (show 14 < 2 ^ 8 by decide) (Nat.pow_le_pow_right (by decide) (Nat.le_add_left 8 i))
    have : (0xE : Word).getLsbD (i + 8) = false := Nat.testBit_lt_two_pow hlt
    rw [this]
    simp
  all_goals simp

/-- Settles O41: a STATUS write is `acknowledge`, and STATUS then reads without the written ones of bits 3:1. -/
theorem statusWriteClearsWrittenOnes : Obligations.StatusWriteClearsWrittenOnes := by
  unfold Obligations.StatusWriteClearsWrittenOnes
  exact fun s v => ⟨acknowledge v s, access_write_status v s, statusWord_cleared s.status v, rfl⟩

/-! ## CTRL -/

/-- CTRL reads IE at bit 0, and its reserved bits 0 (R25). -/
theorem ctrl_reads_bit_zero (v : Word) : (flagBit (v.getLsbD 0)).setWidth 32 = v &&& 1 := by
  apply BitVec.eq_of_getLsbD_eq
  intro i hi
  cases i with
  | zero => simp [flagBit]
  | succ i => simp [flagBit, BitVec.getLsbD_one]

/-- Settles O55: CTRL is not protected, and reads back IE alone. -/
theorem ctrlWriteSetsIeOnly : Obligations.CtrlWriteSetsIeOnly := by
  unfold Obligations.CtrlWriteSetsIeOnly
  intro s v
  refine ⟨access_write_ctrl v s, ?_⟩
  rw [access_read_ctrl, ctrl_reads_bit_zero]

/-! ## The reset state -/

theorem zeroGroup_getElem : ∀ n : Fin 4, zeroGroup[n] = 0 := by decide

/-- Every register but ID reads 0 after reset (R39). RK does because KEYV is 0, whatever it holds. -/
theorem readReg_reset (r : Reg) : readReg r State.reset = if r = .id then 0x41455307 else 0 := by
  cases r with
  | key n => exact zeroGroup_getElem n
  | data n => exact zeroGroup_getElem n
  | iv n => exact zeroGroup_getElem n
  | chain n => exact zeroGroup_getElem n
  | _ => rfl

theorem regAt_eq_id_iff {o : Nat} (ho : o < 4096) (ha : o % 4 = 0) :
    regAt (BitVec.ofNat 12 o) = .id ↔ o = 0x01C := by
  have e : (BitVec.ofNat 12 o).toNat = o := Nat.mod_eq_of_lt ho
  refine ⟨fun h => ?_, fun h => by subst h; rfl⟩
  rw [← e]
  exact toNat_of_regAt (by rw [e, ha]) (by rw [h]; rfl)

theorem inv_reset : Inv State.reset where
  busy_pending := rfl
  pending_cmd := nofun
  busy_done := fun _ => rfl
  keyv_schedule := nofun
  outlen_le := Nat.zero_le 15
  in_reset := fun _ => atReset_reset

/-- Settles O43: each offset reads as its register does, and only 0x01C is ID's. -/
theorem resetHasInvariant : Obligations.ResetHasInvariant := by
  unfold Obligations.ResetHasInvariant
  refine ⟨inv_reset, rfl, rfl, fun o ho ha => ?_⟩
  rw [access_read_defined ho ha _ (.inl rfl), readReg_reset]
  simp only [regAt_eq_id_iff ho ha]

/-! ## What commands leave in RK, KEYV and OUTLEN -/

/-- UNPAD keeps at most 15 bytes: a padding count is at least 1 (R282). -/
theorem unpadCheck_le {b : Block} {total keep : Nat} (h : unpadCheck b total = some keep) : keep ≤ 15 := by
  simp only [unpadCheck] at h
  split at h
  · next hp => obtain rfl := Option.some.inj h; omega
  · cases h

/-- KEYEXP aside, a command keeps RK and KEYV, and it keeps OUTLEN or sets it to a value of at most 15 (R28, R35). -/
theorem exec_keeps_schedule {i : Instr} (hi : i ≠ .keyexp) (s : State) :
    ∃ t, exec i s = .next t ∧ t.rk = s.rk ∧ t.status.keyv = s.status.keyv ∧
      (t.outlen = s.outlen ∨ t.outlen.toNat ≤ 15) := by
  have key : ∀ u : State, u.rk = s.rk → u.status.keyv = s.status.keyv → u.outlen = s.outlen →
      ∃ t, needKey s (succeed u) = .next t ∧ t.rk = s.rk ∧ t.status.keyv = s.status.keyv ∧
        (t.outlen = s.outlen ∨ t.outlen.toNat ≤ 15) := by
    intro u hrk hkeyv hout
    rcases needKey_cases s (succeed u) with ⟨-, h⟩ | ⟨-, h⟩ <;> rw [h]
    · exact ⟨_, rfl, rfl, rfl, .inl rfl⟩
    · exact ⟨_, rfl, hrk, hkeyv, .inl hout⟩
  cases i with
  | keyexp => exact absurd rfl hi
  | init => exact ⟨_, rfl, rfl, rfl, .inr (Nat.zero_le 15)⟩
  | encEcb => exact key _ rfl rfl rfl
  | decEcb => exact key _ rfl rfl rfl
  | encCbc => exact key _ rfl rfl rfl
  | decCbc => exact key _ rfl rfl rfl
  | pad n =>
    simp only [exec, execPad]
    split <;> exact ⟨_, rfl, rfl, rfl, .inl rfl⟩
  | unpad =>
    simp only [exec, execUnpad]
    split
    · exact ⟨_, rfl, rfl, rfl, .inl rfl⟩
    · next keep hk =>
      have hle : keep ≤ 15 := unpadCheck_le hk
      exact ⟨_, rfl, rfl, rfl, .inr (Nat.le_trans (Nat.mod_le _ _) hle)⟩
  | addrk n =>
    simp only [exec, execAddrk]
    split
    · exact key _ rfl rfl rfl
    · exact ⟨_, rfl, rfl, rfl, .inl rfl⟩
  | rcon n =>
    simp only [exec, execRcon]
    split <;> exact ⟨_, rfl, rfl, rfl, .inl rfl⟩
  | _ => exact ⟨_, rfl, rfl, rfl, .inl rfl⟩

/-- KEYEXP's row of R106 fits one word only. -/
theorem eq_one_of_decode_keyexp {w : Word} (h : decode w = .ok .keyexp) : w = 0x00000001 := by
  have row : ∀ r ∈ rows, r.instr w = .keyexp → r.mask = 0xFFFFFFFF ∧ r.mtch = 0x00000001 := by
    simp [rows, controlRows, blockRows, primitiveRows, Row.instr]
  unfold decode at h
  split at h
  · next r hr =>
    obtain ⟨hmask, hmtch⟩ := row r (List.mem_of_find?_eq_some hr) (Except.ok.inj h)
    have hfits : w &&& r.mask = r.mtch := by simpa [Row.fits] using List.find?_some hr
    rw [hmask, hmtch] at hfits
    simpa using (BitVec.and_allOnes (x := w)).symm.trans hfits
  · cases h

/-- What the completion of a pending word leaves in RK, KEYV and OUTLEN: RK as it was, with KEYV not set anew, or a successful KEYEXP. -/
theorem runCommand_schedule {w : Word} {s t : State} (h : runCommand w s = .next t) :
    ((t.rk = s.rk ∧ (t.status.keyv = true → s.status.keyv = true)) ∨
      (w = 0x00000001 ∧ s.keylen = 16 ∧ t.rk = keyExpand (blk s.key) ∧ t.status.keyv = true)) ∧
    (t.outlen = s.outlen ∨ t.outlen.toNat ≤ 15) := by
  unfold runCommand at h
  split at h
  · obtain rfl := Host.Outcome.next.inj h
    exact ⟨.inl ⟨rfl, id⟩, .inl rfl⟩
  · next i hd =>
    by_cases hi : i = .keyexp
    · subst hi
      simp only [exec, execKeyexp] at h
      split at h <;> obtain rfl := Host.Outcome.next.inj h
      · next hl => exact ⟨.inr ⟨eq_one_of_decode_keyexp hd, hl, rfl, rfl⟩, .inl rfl⟩
      · exact ⟨.inl ⟨rfl, nofun⟩, .inl rfl⟩
    · obtain ⟨u, hu, hrk, hkeyv, hout⟩ := exec_keeps_schedule hi s
      obtain rfl := Host.Outcome.next.inj (hu.symm.trans h)
      exact ⟨.inl ⟨hrk, hkeyv ▸ id⟩, hout⟩

/-! ## What one transaction can do -/

/-- Everything a transaction can do: count free values, clear bits of STATUS, write CTRL, overrun, or, while BUSY = 0, issue a word or
store in KEYLEN, KEY, DATA and IV. -/
theorem access_cases (tr : Transaction) (s : State) :
    (∃ n, (access tr s).2 = drew n s) ∨
    (∃ v, (access tr s).2 = acknowledge v s) ∨
    (∃ v, tr = .write (at' 0x008) 4 v ∧ (access tr s).2 = { s with ie := v.getLsbD 0 }) ∨
    (s.status.busy = true ∧ (access tr s).2 = overrun s) ∨
    (∃ v, s.status.busy = false ∧ (access tr s).2 = issue v s) ∨
    (s.status.busy = false ∧
      ∃ kl k d iv, (access tr s).2 = { s with keylen := kl, key := k, data := d, iv := iv }) := by
  rcases access_state tr s with h | ⟨addr, off, v, rfl, hroute, ha, hw⟩
  · exact .inl h
  · rw [hw]
    rcases writeReg_cases (regAt off) v s with h | ⟨-, h⟩ | ⟨hreg, h⟩ | ⟨hb, h⟩ | ⟨hb, -, h⟩ | ⟨hb, kl, k, d, iv, h⟩ <;>
      rw [h]
    · exact .inl ⟨0, rfl⟩
    · exact .inr (.inl ⟨v, rfl⟩)
    · have hoff : off.toNat = 0x008 := toNat_of_regAt ha (by rw [hreg]; rfl)
      exact .inr (.inr (.inl ⟨v, by rw [route_eq_some hroute, hoff, at'], rfl⟩))
    · exact .inr (.inr (.inr (.inl ⟨hb, rfl⟩)))
    · exact .inr (.inr (.inr (.inr (.inl ⟨v, hb, rfl⟩))))
    · exact .inr (.inr (.inr (.inr (.inr ⟨hb, kl, k, d, iv, rfl⟩))))

theorem transact_eq (tr : Transaction) (s : State) : transact tr s = respond (access tr s).1 (access tr s).2 := rfl

/-- No transaction writes RK, KEYV or OUTLEN. -/
theorem access_keeps_schedule (tr : Transaction) (s : State) :
    (access tr s).2.rk = s.rk ∧ (access tr s).2.status.keyv = s.status.keyv ∧ (access tr s).2.outlen = s.outlen := by
  rcases access_cases tr s with ⟨n, h⟩ | ⟨v, h⟩ | ⟨v, -, h⟩ | ⟨-, h⟩ | ⟨v, -, h⟩ | ⟨-, kl, k, d, iv, h⟩ <;> rw [h] <;>
    exact ⟨rfl, rfl, rfl⟩

/-- What a transaction does to CMD, pending, BUSY and DONE: it issues a word while BUSY = 0, or leaves them, and may clear DONE. -/
theorem access_command_cases (tr : Transaction) (s : State) :
    (∃ v, s.status.busy = false ∧ (access tr s).2 = issue v s) ∨
    ((access tr s).2.pending = s.pending ∧ (access tr s).2.cmd = s.cmd ∧
      (access tr s).2.status.busy = s.status.busy ∧ ((access tr s).2.status.done = true → s.status.done = true)) := by
  rcases access_cases tr s with ⟨n, h⟩ | ⟨v, h⟩ | ⟨v, -, h⟩ | ⟨-, h⟩ | ⟨v, hb, h⟩ | ⟨-, kl, k, d, iv, h⟩ <;> rw [h]
  · exact .inr ⟨rfl, rfl, rfl, id⟩
  · exact .inr ⟨rfl, rfl, rfl, fun hd => (Bool.and_eq_true_iff.mp hd).1⟩
  · exact .inr ⟨rfl, rfl, rfl, id⟩
  · exact .inr ⟨rfl, rfl, rfl, id⟩
  · exact .inl ⟨v, hb, rfl⟩
  · exact .inr ⟨rfl, rfl, rfl, id⟩

/-! ## The invariant -/

theorem atReset_popped {s : State} (h : AtReset s) : AtReset (popped s) := by
  unfold AtReset at h ⊢
  unfold popped
  conv_lhs => rw [h]

theorem AtReset.pending_eq_none {s : State} (h : AtReset s) : s.pending = none := by
  unfold AtReset at h
  rw [h]
  rfl

theorem Inv.popped {s : State} (h : Inv s) : Inv (popped s) :=
  { h with in_reset := fun hr => atReset_popped (h.in_reset hr) }

theorem inv_leaveReset {s : State} (h : Inv s) : Inv (leaveReset s) :=
  { h with in_reset := nofun }

theorem inv_enterReset (s : State) : Inv (enterReset s) where
  busy_pending := rfl
  pending_cmd := nofun
  busy_done := fun _ => rfl
  keyv_schedule := nofun
  outlen_le := Nat.zero_le 15
  in_reset := fun _ => atReset_enterReset s

/-- While a command is pending BUSY is 1. -/
theorem Inv.busy {s : State} (h : Inv s) {w : Word} (hp : s.pending = some w) : s.status.busy = true := by
  rw [h.busy_pending, hp]; rfl

/-- No command is pending while reset is asserted. -/
theorem Inv.inReset_eq_false {s : State} (h : Inv s) {w : Word} (hp : s.pending = some w) : s.inReset = false := by
  cases hr : s.inReset with
  | false => rfl
  | true => rw [(h.in_reset hr).pending_eq_none] at hp; cases hp

/-- A completion keeps the invariant. -/
theorem inv_runCommand {w : Word} {s t : State} (hs : Inv s) (hp : s.pending = some w) (h : runCommand w s = .next t) :
    Inv t := by
  obtain ⟨hrk, hout⟩ := runCommand_schedule h
  obtain ⟨e, u, hu, hwrites⟩ := runCommand_completes w s
  obtain rfl := Host.Outcome.next.inj (hu.symm.trans h)
  constructor
  case busy_pending => rfl
  case pending_cmd => nofun
  case busy_done => nofun
  case keyv_schedule =>
    intro hk
    rcases hrk with ⟨hrk, hkeyv⟩ | ⟨-, -, hrk, -⟩
    · rw [hrk]; exact hs.keyv_schedule (hkeyv hk)
    · exact ⟨_, hrk⟩
  case outlen_le =>
    rcases hout with hout | hout
    · rw [hout]; exact hs.outlen_le
    · exact hout
  case in_reset =>
    intro hr
    have hin : u.inReset = s.inReset := by rw [hwrites]
    rw [complete_inReset, hin, hs.inReset_eq_false hp] at hr
    cases hr

/-- A transaction keeps the invariant while reset is released. -/
theorem inv_transact (tr : Transaction) {s : State} (hs : Inv s) (hr : s.inReset = false) : Inv (transact tr s) := by
  obtain ⟨hrk, hkeyv, hout⟩ := access_keeps_schedule tr s
  obtain ⟨hin, -, -⟩ := access_outside tr s
  rw [transact_eq]
  constructor
  case keyv_schedule => simpa [hrk, hkeyv] using hs.keyv_schedule
  case outlen_le => simpa [hout] using hs.outlen_le
  case in_reset => simp [hin, hr]
  all_goals rcases access_command_cases tr s with ⟨v, -, h⟩ | ⟨hpend, hcmd, hbusy, hdone⟩
  case busy_pending.inl => simp [h]
  case pending_cmd.inl => simp [h]
  case busy_done.inl => simp [h]
  case busy_pending.inr => simpa [hbusy, hpend] using hs.busy_pending
  case pending_cmd.inr => simpa [hpend, hcmd] using hs.pending_cmd
  case busy_done.inr =>
    intro hb
    cases hd : (access tr s).2.status.done with
    | false => simp [hd]
    | true => exact absurd (hdone hd) (by simp [hs.busy_done (hbusy ▸ hb)])

/-- Settles O42: each of the five things a step can do keeps the invariant. -/
theorem stepKeepsInvariant : Obligations.StepKeepsInvariant := by
  unfold Obligations.StepKeepsInvariant
  intro s t hs hstep
  rcases step_cases hstep with ⟨-, -, rfl⟩ | ⟨w, -, hp, hrun⟩ | ⟨tr, -, hr, rfl⟩ | ⟨tr, u, -, -, rfl⟩ | ⟨-, rfl⟩
  · exact hs.popped
  · exact inv_runCommand hs.popped hp hrun
  · exact inv_transact tr hs.popped hr
  · exact inv_enterReset u
  · exact inv_leaveReset hs.popped

/-! ## What ends a pending command, and what changes RK -/

/-- Settles O49: of the five things a step can do, only a completion and reset touch the pending word while BUSY = 1. -/
theorem onlyCompletionOrResetEndsPending : Obligations.OnlyCompletionOrResetEndsPending := by
  unfold Obligations.OnlyCompletionOrResetEndsPending
  intro s t w hs hp hstep hne
  rcases step_cases hstep with ⟨-, hnone, -⟩ | ⟨v, hc, -, hrun⟩ | ⟨tr, -, -, rfl⟩ | ⟨tr, u, ha, -, rfl⟩ | ⟨-, rfl⟩
  · rw [hp] at hnone; cases hnone
  · obtain ⟨e, u, hu, -⟩ := runCommand_completes v (popped s)
    obtain rfl := Host.Outcome.next.inj (hu.symm.trans hrun)
    exact ⟨rfl, .inl hc⟩
  · rcases access_command_cases tr (popped s) with ⟨v, hidle, -⟩ | ⟨hpend, -, -, -⟩
    · exact absurd (hs.busy hp) (by simpa using hidle)
    · exact absurd (hpend.trans hp) hne
  · exact ⟨rfl, .inr ⟨tr, ha⟩⟩
  · exact absurd hp hne

/-- Settles O51: of the five things a step can do, only a completion and reset write RK, and of the completions only KEYEXP's. -/
theorem scheduleChangesOnlyByKeyexp : Obligations.ScheduleChangesOnlyByKeyexp := by
  unfold Obligations.ScheduleChangesOnlyByKeyexp
  intro s t hstep hne
  rcases step_cases hstep with ⟨-, -, rfl⟩ | ⟨w, hc, hp, hrun⟩ | ⟨tr, -, -, rfl⟩ | ⟨tr, u, ha, -, rfl⟩ | ⟨-, rfl⟩
  · exact absurd rfl hne
  · obtain ⟨⟨hrk, -⟩ | ⟨rfl, hlen, hrk, hkeyv⟩, -⟩ := runCommand_schedule hrun
    · exact absurd hrk hne
    · exact .inl ⟨hc, hp, hlen, hrk, hkeyv⟩
  · exact absurd (access_keeps_schedule tr (popped s)).1 hne
  · exact .inr ⟨tr, ha⟩
  · exact absurd rfl hne

/-! ## The irq output -/

theorem irq_eq_true_iff {s : State} : irq s = true ↔ s.ie = true ∧ s.status.done = true := by
  simp [irq]

/-- A completion sets DONE, so irq is then IE. -/
theorem runCommand_irq (w : Word) (s : State) : ∃ t, runCommand w s = .next t ∧ irq t = s.ie := by
  obtain ⟨e, u, hu, hwrites⟩ := runCommand_completes w s
  refine ⟨_, hu, ?_⟩
  rw [hwrites]
  simp [irq]

/-- A transaction raises irq only as a CTRL write that sets IE while DONE = 1. -/
theorem access_raises_irq {tr : Transaction} {s : State} (h0 : irq s = false) (h1 : irq (access tr s).2 = true) :
    ∃ v, tr = .write (at' 0x008) 4 v ∧ v.getLsbD 0 = true ∧ s.status.done = true := by
  have hlow : ¬ (s.ie = true ∧ s.status.done = true) := by rw [← irq_eq_true_iff]; simp [h0]
  rw [irq_eq_true_iff] at h1
  rcases access_cases tr s with ⟨n, h⟩ | ⟨v, h⟩ | ⟨v, htr, h⟩ | ⟨-, h⟩ | ⟨v, -, h⟩ | ⟨-, kl, k, d, iv, h⟩ <;>
    rw [h] at h1
  · exact absurd h1 hlow
  · exact absurd ⟨h1.1, (Bool.and_eq_true_iff.mp h1.2).1⟩ hlow
  · exact ⟨v, htr, h1⟩
  · exact absurd h1 hlow
  · exact absurd h1.2 nofun
  · exact absurd h1 hlow

/-- Settles O50, clause by clause: irq as it reads, the two ways to raise it, the clear, and that no other step raises it. -/
theorem irqRisesOnlyOnCompletionOrEnable : Obligations.IrqRisesOnlyOnCompletionOrEnable := by
  unfold Obligations.IrqRisesOnlyOnCompletionOrEnable
  refine ⟨fun s => ?_, fun s hc hp => ?_, fun s v hd hv => ?_, fun s v hv => ?_, fun s t hstep h0 h1 => ?_⟩
  · refine ⟨_, _, access_read_ctrl s, access_read_status s, ?_⟩
    rw [irq_eq_true_iff, statusWord_getLsbD]
    simp [flagBit, statusBit]
  · obtain ⟨w, hw⟩ := Option.ne_none_iff_exists'.mp hp
    rw [step_of_coreNext hc, coreTurn, popped_pending, hw]
    exact runCommand_irq w (popped s)
  · rw [access_write_ctrl]
    exact irq_eq_true_iff.mpr ⟨hv, hd⟩
  · rw [access_write_status]
    simp [irq, hv]
  · rcases step_cases hstep with ⟨-, -, rfl⟩ | ⟨w, hc, hp, hrun⟩ | ⟨tr, ha, -, rfl⟩ | ⟨tr, u, -, -, rfl⟩ | ⟨-, rfl⟩
    · exact absurd (h0.symm.trans h1) nofun
    · obtain ⟨u, hu, hirq⟩ := runCommand_irq w (popped s)
      obtain rfl := Host.Outcome.next.inj (hu.symm.trans hrun)
      exact .inl ⟨hc, by simp [hp], hirq.symm.trans h1⟩
    · obtain ⟨v, rfl, hv, hd⟩ := access_raises_irq (s := popped s) h0 h1
      exact .inr ⟨_, v, ha, rfl, hv, hd⟩
    · cases h1
    · exact absurd (h0.symm.trans h1) nofun

/-! ## A write and a completion in one cycle -/

/-- A completion clears BUSY, sets DONE, keeps OVR, and sets ERR with every code but 0 (R147). -/
theorem runCommand_status (w : Word) (s : State) :
    ∃ t, runCommand w s = .next t ∧ t.pending = none ∧ t.status.busy = false ∧ t.status.done = true ∧
      (t.status.errcode ≠ none → t.status.err = true) ∧ t.status.ovr = s.status.ovr := by
  obtain ⟨e, u, hu, hwrites⟩ := runCommand_completes w s
  refine ⟨_, hu, rfl, rfl, rfl, fun he => ?_, ?_⟩
  · have : e.isSome = true := Option.isSome_iff_ne_none.mpr he
    simp [this]
  · rw [hwrites]; rfl

/-- A transaction while a command is pending, and the core's turn after it: the same word completes, on what the transaction left. -/
theorem steps_of_host_then_core {s : State} {w : Word} {tr : Transaction} {rest : List Event} (hs : Inv s)
    (hr : s.inReset = false) (hp : s.pending = some w) (ha : s.agenda = .host tr :: .core :: rest) :
    step s = .next (transact tr (popped s)) ∧
      step (transact tr (popped s)) = runCommand w (popped (transact tr (popped s))) := by
  obtain ⟨-, hagenda, -⟩ := access_outside tr (popped s)
  constructor
  · rw [step_of_host (by rw [ha]; rfl), hostTurn]
    simp [hr]
  · have hcore : coreNext (transact tr (popped s)) := by
      right
      rw [transact_eq, respond_agenda, hagenda, popped_agenda, ha]
      rfl
    have hpend : (access tr (popped s)).2.pending = some w := by
      rcases access_command_cases tr (popped s) with ⟨v, hidle, -⟩ | ⟨hpend, -, -, -⟩
      · exact absurd (hs.busy hp) (by simpa using hidle)
      · exact hpend.trans hp
    rw [step_of_coreNext hcore, coreTurn, popped_pending, transact_eq, respond_pending, hpend]

/-- Settles O52: the completion comes on top of what the write left, and a protected write while BUSY = 1 left an overrun. -/
theorem completionAfterSameCycleWrite : Obligations.CompletionAfterSameCycleWrite := by
  unfold Obligations.CompletionAfterSameCycleWrite
  intro s w v o rest hs hr hp ho ha
  obtain ⟨hhost, hcore⟩ := steps_of_host_then_core hs hr hp ha
  obtain ⟨u, hrun, hnone, hbusy, hdone, herr, hovr⟩ := runCommand_status w (popped (transact (.write (at' o) 4 v) (popped s)))
  refine ⟨_, u, hhost, hcore.trans hrun, hnone, hbusy, hdone, herr, fun hprot => ?_⟩
  rw [hovr, popped_status, transact_eq, respond_status, access_write_protected_busy (s := popped s) hprot v (hs.busy hp)]
  rfl

/-! ## RK is hidden while KEYV = 0 -/

/-- `s` with other physical contents of RK. -/
def withRk (k : Schedule) (s : State) : State := { s with rk := k }

section
variable (k : Schedule) (s : State)

@[simp] theorem withRk_status : (withRk k s).status = s.status := rfl
@[simp] theorem withRk_keylen : (withRk k s).keylen = s.keylen := rfl
@[simp] theorem withRk_blkcnt : (withRk k s).blkcnt = s.blkcnt := rfl
@[simp] theorem withRk_data : (withRk k s).data = s.data := rfl
@[simp] theorem withRk_pending : (withRk k s).pending = s.pending := rfl
@[simp] theorem withRk_inReset : (withRk k s).inReset = s.inReset := rfl
@[simp] theorem withRk_agenda : (withRk k s).agenda = s.agenda := rfl
@[simp] theorem withRk_draws : (withRk k s).draws = s.draws := rfl

theorem protectedWrite_withRk (u : State) :
    protectedWrite (withRk k s) (withRk k u) = withRk k (protectedWrite s u) := by
  unfold protectedWrite
  rw [withRk_status]
  split <;> rfl

/-- What a register write does does not depend on RK. -/
theorem writeReg_withRk (r : Reg) (v : Word) : writeReg r v (withRk k s) = withRk k (writeReg r v s) := by
  cases r with
  | cmd => exact protectedWrite_withRk k s (issue v s)
  | keylen => exact protectedWrite_withRk k s { s with keylen := v.setWidth 8 }
  | key n => exact protectedWrite_withRk k s { s with key := s.key.set n v }
  | data n => exact protectedWrite_withRk k s { s with data := s.data.set n v }
  | iv n => exact protectedWrite_withRk k s { s with iv := s.iv.set n v }
  | _ => rfl

end

theorem sameButHiddenRk_refl (s : State) : SameButHiddenRk s s := ⟨rfl, .inr rfl⟩

theorem sameButHiddenRk_withRk {s : State} (hk : s.status.keyv = false) (k : Schedule) : SameButHiddenRk s (withRk k s) :=
  ⟨rfl, .inl hk⟩

/-- Two states that differ in hidden contents of RK only are equal, or KEYV is 0 and the second is the first with other contents. -/
theorem sameButHiddenRk_cases {s t : State} (h : SameButHiddenRk s t) :
    t = s ∨ (s.status.keyv = false ∧ ∃ k, t = withRk k s) := by
  obtain ⟨heq, hk | hrk⟩ := h
  · exact .inr ⟨hk, t.rk, heq⟩
  · exact .inl (by rw [heq, hrk])

/-- Two outcomes that differ in nothing but RK's physical contents, and in these only while KEYV = 0. -/
def SameOutcomeButHiddenRk : Host.Outcome State Fault Refusal → Host.Outcome State Fault Refusal → Prop
  | .next s, .next t => SameButHiddenRk s t
  | .refused r, .refused r' => r = r'
  | _, _ => False

theorem sameOutcomeButHiddenRk_refl (o : Host.Outcome State Fault Refusal) : SameOutcomeButHiddenRk o o := by
  cases o with
  | next s => exact sameButHiddenRk_refl s
  | fault f => cases f
  | refused r => exact rfl

theorem sameOutcome_next {s : State} {o : Host.Outcome State Fault Refusal} (h : SameOutcomeButHiddenRk (.next s) o) :
    ∃ t, o = .next t ∧ SameButHiddenRk s t := by
  cases o with
  | next t => exact ⟨t, rfl, h⟩
  | fault f => cases f
  | refused r => exact h.elim

theorem sameOutcome_refused {r : Refusal} {o : Host.Outcome State Fault Refusal}
    (h : SameOutcomeButHiddenRk (.refused r) o) : o = .refused r := by
  cases o with
  | next t => exact h.elim
  | fault f => cases f
  | refused r' => exact congrArg _ (Eq.symm h)

section
variable {s : State} (hk : s.status.keyv = false) (k : Schedule)
include hk

/-- No command but KEYEXP writes RK and those that read it raise NoKey while KEYV = 0, so the outcome does not depend on its contents. -/
theorem exec_withRk (i : Instr) : SameOutcomeButHiddenRk (exec i s) (exec i (withRk k s)) := by
  have noKey : ∀ run run' : Host.Outcome State Fault Refusal,
      SameOutcomeButHiddenRk (needKey s run) (needKey (withRk k s) run') := by
    intro run run'
    rw [needKey_of_not_keyv hk, needKey_of_not_keyv (s := withRk k s) hk]
    exact ⟨rfl, .inl hk⟩
  cases i with
  | keyexp =>
    by_cases h : s.keylen = 16 <;> simp only [exec, execKeyexp, withRk_keylen, h]
    · exact ⟨rfl, .inr rfl⟩
    · exact ⟨rfl, .inl rfl⟩
  | encEcb => exact noKey _ _
  | decEcb => exact noKey _ _
  | encCbc => exact noKey _ _
  | decCbc => exact noKey _ _
  | pad n =>
    by_cases h : n.toNat ≤ 15 <;> simp only [exec, execPad, h] <;> exact ⟨rfl, .inl hk⟩
  | unpad =>
    simp only [exec, execUnpad, withRk_data, withRk_blkcnt]
    cases unpadCheck (blk s.data) (16 * s.blkcnt.toNat) <;> exact ⟨rfl, .inl hk⟩
  | addrk n =>
    by_cases h : n.toNat ≤ 10 <;> simp only [exec, execAddrk, h]
    · exact noKey _ _
    · exact ⟨rfl, .inl hk⟩
  | rcon n =>
    by_cases h : 1 ≤ n.toNat ∧ n.toNat ≤ 10 <;> simp only [exec, execRcon, h] <;> exact ⟨rfl, .inl hk⟩
  | _ => exact ⟨rfl, .inl hk⟩

theorem runCommand_withRk (w : Word) : SameOutcomeButHiddenRk (runCommand w s) (runCommand w (withRk k s)) := by
  unfold runCommand
  split
  · exact ⟨rfl, .inl hk⟩
  · exact exec_withRk hk k _

theorem coreTurn_withRk : SameOutcomeButHiddenRk (coreTurn s) (coreTurn (withRk k s)) := by
  unfold coreTurn
  rw [withRk_pending]
  split
  · exact sameButHiddenRk_withRk hk k
  · exact runCommand_withRk hk k _

/-- RK reads 0 while KEYV = 0, and no other register holds any of it. -/
theorem readReg_withRk (r : Reg) : readReg r (withRk k s) = readReg r s := by
  cases r with
  | rk i => simp [readReg, hk]
  | _ => rfl

theorem busRead_withRk (off : Offset) (size : Nat) :
    busRead off size (withRk k s) = ((busRead off size s).1, withRk k (busRead off size s).2) := by
  unfold busRead
  rw [readReg_withRk hk, withRk_status]
  split
  · split <;> rfl
  · rfl

/-- A transaction gets the same answer and does the same to everything but RK. -/
theorem access_withRk (tr : Transaction) :
    access tr (withRk k s) = ((access tr s).1, withRk k (access tr s).2) := by
  cases tr with
  | read addr size =>
    simp only [access]
    split
    · exact busRead_withRk hk k _ size
    · rfl
  | write addr size v =>
    simp only [access, busWrite, writeReg_withRk]
    split
    · split <;> rfl
    · rfl

theorem transact_withRk (tr : Transaction) : SameButHiddenRk (transact tr s) (transact tr (withRk k s)) := by
  obtain ⟨-, hkeyv, -⟩ := access_keeps_schedule tr s
  rw [transact_eq tr (withRk k s), access_withRk hk]
  exact sameButHiddenRk_withRk (s := transact tr s) (hkeyv.trans hk) k

/-- Reset overwrites RK, so a transaction it cuts short shows nothing of it either. -/
theorem enterReset_cutShort_withRk (tr : Transaction) :
    enterReset (cutShort tr (withRk k s)) = enterReset (cutShort tr s) := by
  have h : cutShort tr (withRk k s) = withRk k (cutShort tr s) := by
    unfold cutShort
    rw [access_withRk hk, withRk_draws]
    cases Config.freeBool s.draws <;> rfl
  rw [h]
  rfl

theorem act_withRk (e : Event) : SameOutcomeButHiddenRk (act e s) (act e (withRk k s)) := by
  cases e with
  | host tr =>
    by_cases hr : s.inReset = true <;> simp only [act, hostTurn, withRk_inReset, hr]
    · exact rfl
    · exact transact_withRk hk k tr
  | core => exact coreTurn_withRk hk k
  | assertReset tr =>
    cases tr with
    | none => exact sameOutcomeButHiddenRk_refl (.next (enterReset s))
    | some tr =>
      simp only [act, resetTurn, withRk_inReset, enterReset_cutShort_withRk hk]
      exact sameOutcomeButHiddenRk_refl _
  | releaseReset => exact sameButHiddenRk_withRk (s := leaveReset s) hk k

theorem step_withRk : SameOutcomeButHiddenRk (step s) (step (withRk k s)) := by
  unfold step advance
  rw [withRk_agenda]
  split
  · exact coreTurn_withRk hk k
  · next e rest _ => exact act_withRk (s := { s with agenda := rest }) hk k e

end

theorem step_sameButHiddenRk {s t : State} (h : SameButHiddenRk s t) : SameOutcomeButHiddenRk (step s) (step t) := by
  rcases sameButHiddenRk_cases h with rfl | ⟨hk, k, rfl⟩
  · exact sameOutcomeButHiddenRk_refl _
  · exact step_withRk hk k

/-- Settles O44: the same step from related states has related outcomes, so the same refusal or related next states. -/
theorem hiddenScheduleNotObservable : Obligations.HiddenScheduleNotObservable := by
  unfold Obligations.HiddenScheduleNotObservable
  intro s t hst
  have h := step_sameButHiddenRk hst
  exact ⟨fun s' hs => sameOutcome_next (hs ▸ h), fun r hs => sameOutcome_refused (hs ▸ h)⟩

end Sys2Proof.Machine

namespace Sys2Proof.Machine

open Sys2Proof.Reference

/-! ## Registers and their offsets (R72) -/

/-- A register stands at its offset. -/
theorem regAt_of_regOffset {r : Reg} {o : Nat} (h : regOffset r = some o) : regAt (BitVec.ofNat 12 o) = r := by
  cases r <;> cases h
  case key n => exact regAt_key n
  case data n => exact regAt_data n
  case iv n => exact regAt_iv n
  case chain n => exact regAt_chain n
  case rk i => exact regAt_rk i
  all_goals rfl

theorem regOffset_aligned {r : Reg} {o : Nat} (h : regOffset r = some o) : o < 4096 ∧ o % 4 = 0 := by
  cases r <;> cases h <;> omega

theorem regOffset_not_reserved {r : Reg} {o : Nat} (h : regOffset r = some o) : ¬ reservedOffset o := by
  unfold reservedOffset
  cases r <;> cases h <;> omega

theorem reservedOffset_aligned {o : Nat} (h : reservedOffset o) : o < 4096 ∧ o % 4 = 0 := by
  obtain ⟨ha, h | h⟩ := h <;> omega

/-- An aligned offset of the window is its register's, or a reserved one. -/
theorem regOffset_or_reserved {o : Nat} (ho : o < 4096) (ha : o % 4 = 0) :
    regOffset (regAt (BitVec.ofNat 12 o)) = some o ∨
      (regAt (BitVec.ofNat 12 o) = .reserved ∧ reservedOffset o) := by
  have e : (BitVec.ofNat 12 o).toNat = o := Nat.mod_eq_of_lt ho
  have h := regOffset_regAt (BitVec.ofNat 12 o) (e.symm ▸ ha)
  rw [e] at h
  refine h.imp id fun ⟨hr, hrange⟩ => ⟨hr, ha, ?_⟩
  omega

theorem regAt_reserved {o : Nat} (h : reservedOffset o) : regAt (BitVec.ofNat 12 o) = .reserved := by
  obtain ⟨ho, ha⟩ := reservedOffset_aligned h
  rcases regOffset_or_reserved ho ha with hr | ⟨hr, -⟩
  · exact absurd h (regOffset_not_reserved hr)
  · exact hr

/-- A register that is mapped is the only one at its offset. -/
theorem regAt_ne_of_ne {r : Reg} {o o' : Nat} (h : regOffset r = some o) (ho' : o' < 4096) (ha' : o' % 4 = 0)
    (hne : o' ≠ o) : regAt (BitVec.ofNat 12 o') ≠ r := by
  rintro rfl
  rcases regOffset_or_reserved ho' ha' with hr | ⟨hr, -⟩
  · exact hne (Option.some.inj (hr.symm.trans h))
  · rw [hr] at h; cases h

/-- R89's list of registers and its offsets agree. -/
theorem unspecifiedWhileBusy_iff {o : Nat} (ho : o < 4096) (ha : o % 4 = 0) :
    (regAt (BitVec.ofNat 12 o)).unspecifiedWhileBusy = true ↔ resultOffset o := by
  unfold resultOffset
  rcases regOffset_or_reserved ho ha with h | ⟨h, -, hrange⟩
  · generalize regAt (BitVec.ofNat 12 o) = r at h
    cases r <;> cases h <;> simp only [Reg.unspecifiedWhileBusy, true_iff, true_and, Bool.false_eq_true, false_iff] <;> omega
  · simp only [h, Reg.unspecifiedWhileBusy, Bool.false_eq_true, false_iff]
    omega

/-- The registers that a write does change (R75) stand at none of the read-only offsets. -/
theorem writeReg_readOnly {r : Reg} {o : Nat} (h : regOffset r = some o) (hro : readOnlyOffset o) (v : Word) (s : State) :
    writeReg r v s = s := by
  unfold readOnlyOffset at hro
  cases r <;> cases h
  case cmd | status | ctrl | keylen | key n | data n | iv n => omega
  all_goals rfl

theorem regOffset_of_readOnlyOffset {o : Nat} (h : readOnlyOffset o) :
    o < 4096 ∧ o % 4 = 0 ∧ regOffset (regAt (BitVec.ofNat 12 o)) = some o := by
  unfold readOnlyOffset at h
  have ho : o < 4096 := by omega
  refine ⟨ho, h.1, ?_⟩
  rcases regOffset_or_reserved ho h.1 with hr | ⟨-, hres⟩
  · exact hr
  · unfold reservedOffset at hres; omega

/-! ## Transactions that are not decoded (R76, R327), and those that are -/

theorem decoded_eq_false {o size : Nat} (ho : o < 4096) (hbad : size ≠ 4 ∨ o % 4 ≠ 0) :
    decoded (BitVec.ofNat 12 o) size = false := by
  rw [decoded_ofNat ho]
  rcases hbad with h | h <;> simp [h]

theorem access_write_bad {o size : Nat} (ho : o < 4096) (hbad : size ≠ 4 ∨ o % 4 ≠ 0) (v : Word) (s : State) :
    access (.write (at' o) size v) s = (.writeErr, s) := by
  simp [access, at', route_pBase ho, busWrite, decoded_eq_false ho hbad]

theorem access_read_bad {o size : Nat} (ho : o < 4096) (hbad : size ≠ 4 ∨ o % 4 ≠ 0) (s : State) :
    access (.read (at' o) size) s = (.readErr (drawWord s), drew 1 s) := by
  simp [access, at', route_pBase ho, busRead, decoded_eq_false ho hbad]

/-- A read of a result while BUSY = 1 is a free value (R89). -/
theorem access_read_unspecified {o : Nat} (ho : o < 4096) (ha : o % 4 = 0) {s : State} (hb : s.status.busy = true)
    (hu : (regAt (BitVec.ofNat 12 o)).unspecifiedWhileBusy = true) :
    access (.read (at' o) 4) s = (.readOk (drawWord s), drew 1 s) := by
  simp [access, at', route_pBase ho, busRead, decoded_ofNat ho, ha, hb, hu]

theorem access_read_ok {o : Nat} (ho : o < 4096) (ha : o % 4 = 0) (s : State) :
    ∃ x, (access (.read (at' o) 4) s).1 = .readOk x := by
  cases hb : s.status.busy with
  | false => exact ⟨_, by rw [access_read_defined ho ha s (.inl hb)]⟩
  | true =>
    cases hu : (regAt (BitVec.ofNat 12 o)).unspecifiedWhileBusy with
    | false => exact ⟨_, by rw [access_read_defined ho ha s (.inr hu)]⟩
    | true => exact ⟨_, by rw [access_read_unspecified ho ha hb hu]⟩

/-- Settles O36: only an aligned transaction of size 4 is decoded, and a decoded one gets ok at every offset. -/
theorem badAccessIsBusErrorOnly : Obligations.BadAccessIsBusErrorOnly := by
  unfold Obligations.BadAccessIsBusErrorOnly
  intro s o size v ho
  refine ⟨fun hbad => ⟨access_write_bad ho hbad v s, access_read_bad ho hbad s⟩, ?_⟩
  rintro ⟨rfl, ha⟩
  exact ⟨by rw [access_write_aligned ho ha], access_read_ok ho ha s⟩

/-! ## Reads while idle -/

theorem access_read_idle {r : Reg} {o : Nat} (h : regOffset r = some o) {s : State} (hb : s.status.busy = false) :
    access (.read (at' o) 4) s = (.readOk (readReg r s), s) := by
  obtain ⟨ho, ha⟩ := regOffset_aligned h
  rw [access_read_defined ho ha s (.inl hb), regAt_of_regOffset h]

/-- A reserved offset reads 0, busy or idle (R73). -/
theorem access_read_reserved {o : Nat} (h : reservedOffset o) (s : State) :
    access (.read (at' o) 4) s = (.readOk 0, s) := by
  obtain ⟨ho, ha⟩ := reservedOffset_aligned h
  have hr := regAt_reserved h
  rw [access_read_defined ho ha s (.inr (by rw [hr]; rfl)), hr]
  rfl

/-- CTRL reads as 1 or 0 (R25). -/
theorem readReg_ctrl (s : State) : readReg .ctrl s = if s.ie then 1 else 0 := by
  simp only [readReg]
  cases s.ie <;> rfl

/-- Settles O34, register by register at its offset. -/
theorem idleReadsFollowRegisterMap : Obligations.IdleReadsFollowRegisterMap := by
  unfold Obligations.IdleReadsFollowRegisterMap
  intro s hb
  have read : ∀ (r : Reg) {o : Nat}, regOffset r = some o → access (.read (at' o) 4) s = (.readOk (readReg r s), s) :=
    fun _ _ h => access_read_idle h hb
  refine ⟨read .cmd rfl, read .status rfl, ?ctrl, read .keylen rfl, read .result rfl, read .outlen rfl, read .blkcnt rfl,
    read .id rfl, ?groups, fun i => read (.rk i) rfl, fun o h => access_read_reserved h s⟩
  case ctrl => rw [read .ctrl rfl, readReg_ctrl]
  case groups => exact fun n => ⟨read (.key n) rfl, read (.data n) rfl, read (.iv n) rfl, read (.chain n) rfl⟩

/-! ## Reads while busy -/

/-- No register but STATUS shows BUSY. -/
theorem readReg_setBusy {r : Reg} (hr : r ≠ .status) (b : Bool) (s : State) :
    readReg r { s with status := { s.status with busy := b } } = readReg r s := by
  cases r with
  | status => exact absurd rfl hr
  | _ => rfl

/-- Settles O35: R89's registers are drawn free, and the others read as they do with BUSY = 0. -/
theorem busyReadsOfResultsAreFree : Obligations.BusyReadsOfResultsAreFree := by
  unfold Obligations.BusyReadsOfResultsAreFree
  intro s o hb ho ha
  have hiff := unspecifiedWhileBusy_iff ho ha
  refine ⟨fun h => access_read_unspecified ho ha hb (hiff.mpr h), fun h => ?_⟩
  have hu : (regAt (BitVec.ofNat 12 o)).unspecifiedWhileBusy = false := by simpa using mt hiff.mp h
  refine ⟨_, access_read_defined ho ha s (.inr hu), fun hne => ?_, ?_⟩
  · rw [access_read_defined ho ha _ (.inl rfl),
      readReg_setBusy (regAt_ne_of_ne (r := .status) rfl ho ha hne)]
  · rintro rfl; rfl

/-! ## Writes while busy, and writes that are ignored -/

/-- Settles O37: a protected write is an overrun, and STATUS and CTRL are not protected. -/
theorem protectedWritesDropWhileBusy : Obligations.ProtectedWritesDropWhileBusy := by
  unfold Obligations.ProtectedWritesDropWhileBusy
  exact fun s v hb => ⟨fun o ho => access_write_protected_busy ho v hb, access_write_ctrl v s, access_write_status v s⟩

theorem access_write_reserved {o : Nat} (h : reservedOffset o) (v : Word) (s : State) :
    access (.write (at' o) 4 v) s = (.writeOk, s) := by
  obtain ⟨ho, ha⟩ := reservedOffset_aligned h
  rw [access_write_aligned ho ha, regAt_reserved h]
  rfl

theorem access_write_readOnly {o : Nat} (h : readOnlyOffset o) (v : Word) (s : State) :
    access (.write (at' o) 4 v) s = (.writeOk, s) := by
  obtain ⟨ho, ha, hreg⟩ := regOffset_of_readOnlyOffset h
  rw [access_write_aligned ho ha, writeReg_readOnly hreg h]

/-- Settles O40: reserved and read-only offsets ignore the write, and a STATUS write is `acknowledge`. -/
theorem reservedAndReadOnlyIgnoreWrites : Obligations.ReservedAndReadOnlyIgnoreWrites := by
  unfold Obligations.ReservedAndReadOnlyIgnoreWrites
  intro s v
  exact ⟨fun o h => ⟨access_read_reserved h s, access_write_reserved h v s⟩, fun o h => access_write_readOnly h v s,
    acknowledge v s, access_write_status v s, rfl, rfl, rfl, rfl, fun hovr => (Bool.and_eq_true_iff.mp hovr).1⟩

/-! ## Stored writes while idle -/

/-- The registers that keep the word the host writes while BUSY = 0: KEYLEN, KEY, DATA and IV. -/
def Reg.storesWord : Reg → Bool
  | .keylen => true
  | .key _ => true
  | .data _ => true
  | .iv _ => true
  | _ => false

/-- They are the protected registers but CMD. -/
theorem storesWord_of_protectedOffset {o : Nat} (h : protectedOffset o) (h0 : o ≠ 0x000) :
    ∃ r : Reg, regOffset r = some o ∧ r.storesWord = true := by
  rcases protectedOffset_cases h with rfl | rfl | ⟨n, rfl | rfl | rfl⟩
  · exact absurd rfl h0
  · exact ⟨.keylen, rfl, rfl⟩
  · exact ⟨.key n, rfl, rfl⟩
  · exact ⟨.data n, rfl, rfl⟩
  · exact ⟨.iv n, rfl, rfl⟩

theorem group_getElem_set_of_ne {m n : Fin 4} (hne : m ≠ n) (g : Group) (v : Word) : (g.set n v)[m] = g[m] :=
  Vector.getElem_set_ne n.isLt m.isLt fun h => hne (Fin.ext h.symm)

/-- KEYLEN keeps the low byte of a word (R26). -/
theorem lowByte_setWidth (v : Word) : (v.setWidth 8).setWidth 32 = v &&& 0xFF := by
  apply BitVec.eq_of_toNat_eq
  have h : (v &&& 0xFF).toNat = v.toNat % 2 ^ 8 := Nat.and_two_pow_sub_one_eq_mod v.toNat 8
  rw [h, BitVec.toNat_setWidth, BitVec.toNat_setWidth]
  omega

section
variable {r : Reg} {s : State} (hr : r.storesWord = true) (hb : s.status.busy = false) (v : Word)
include hr hb

/-- The write changes nothing but KEYLEN, KEY, DATA and IV. -/
theorem writeReg_storesWord_frame :
    writeReg r v s = { s with
      keylen := (writeReg r v s).keylen, key := (writeReg r v s).key,
      data := (writeReg r v s).data, iv := (writeReg r v s).iv } := by
  cases r <;> cases hr <;> simp only [writeReg, protectedWrite_idle hb]

/-- The register reads back the word written, and KEYLEN its low byte (R26). -/
theorem readReg_writeReg_same : readReg r (writeReg r v s) = if r = .keylen then v &&& 0xFF else v := by
  cases r <;> cases hr <;> simp only [writeReg, protectedWrite_idle hb, readReg]
  case keylen => exact lowByte_setWidth v
  case key n | data n | iv n => exact Vector.getElem_set_self n.isLt

/-- Every other register reads as before. -/
theorem readReg_writeReg_of_ne {r' : Reg} (hne : r' ≠ r) : readReg r' (writeReg r v s) = readReg r' s := by
  cases r <;> cases hr <;> simp only [writeReg, protectedWrite_idle hb] <;> cases r'
  case keylen.refl.keylen => exact absurd rfl hne
  case key.refl.key n m | data.refl.data n m | iv.refl.iv n m =>
    exact group_getElem_set_of_ne (fun h => hne (by rw [h])) _ v
  all_goals rfl

end

/-- KEYLEN stands at 0x00C, and nothing else does. -/
theorem eq_keylen_iff {r : Reg} {o : Nat} (h : regOffset r = some o) : r = .keylen ↔ o = 0x00C := by
  constructor
  · rintro rfl; exact (Option.some.inj h).symm
  · rintro rfl; exact (regAt_of_regOffset h).symm

/-- Settles O38: the offset's register stores the word, and the reads of the others and the rest of the state do not see it. -/
theorem idleWriteReadsBack : Obligations.IdleWriteReadsBack := by
  unfold Obligations.IdleWriteReadsBack
  intro s o v hb hprot h0
  obtain ⟨r, ho, hr⟩ := storesWord_of_protectedOffset hprot h0
  obtain ⟨hlt, ha⟩ := regOffset_aligned ho
  have frame := writeReg_storesWord_frame hr hb v
  have hb' : (writeReg r v s).status.busy = false := by rw [frame]; exact hb
  refine ⟨writeReg r v s, ?write, ?same, fun o' hlt' ha' hne => ?others, frame⟩
  case write => rw [access_write_aligned hlt ha, regAt_of_regOffset ho]
  case same =>
    rw [access_read_idle ho hb', readReg_writeReg_same hr hb]
    simp only [eq_keylen_iff ho]
  case others =>
    rw [access_read_defined hlt' ha' _ (.inl hb'), access_read_defined hlt' ha' _ (.inl hb),
      readReg_writeReg_of_ne hr hb v (regAt_ne_of_ne ho hlt' ha' hne)]

/-! ## The host's turn -/

/-- An address below or above the window is not routed (R76). -/
theorem route_outside {addr : Nat} (h : addr < at' 0 ∨ at' 4096 ≤ addr) : route addr = none := by
  cases hr : route addr with
  | none => rfl
  | some off =>
    have haddr : addr = at' off.toNat := route_eq_some hr
    have hoff : off.toNat < 4096 := off.isLt
    unfold at' at h haddr
    omega

/-- With reset released, a step on the host's turn is its transaction. -/
theorem step_of_host_released {s : State} {tr : Transaction} (h : s.agenda.head? = some (.host tr))
    (hr : s.inReset = false) : step s = .next (transact tr (popped s)) := by
  rw [step_of_host h, hostTurn]
  simp [hr]

/-- Settles O54: a host step is `transact` on the state without the event, and the core has nothing to do while no command is pending. -/
theorem hostTurnIsItsAccess : Obligations.HostTurnIsItsAccess := by
  unfold Obligations.HostTurnIsItsAccess
  refine ⟨fun s tr rest ha hr => ?host, fun s addr size v h => ?outside, fun s hc hp => ?idle⟩
  case host =>
    have hpop : popped s = { s with agenda := rest } := by rw [popped, ha]; rfl
    obtain ⟨-, hagenda, hresp⟩ := access_outside tr (popped s)
    rw [← hpop]
    refine ⟨(access tr (popped s)).1, (access tr (popped s)).2, rfl, ?_, by rw [hagenda, hpop]⟩
    rw [step_of_host_released (by rw [ha]; rfl) hr, transact_eq, respond, hresp, popped_responses]
  case outside => simp [access, route_outside h]
  case idle => rw [step_of_coreNext hc, coreTurn, popped_pending, hp]

end Sys2Proof.Machine

namespace Sys2Proof

open Sys2Proof.Reference

/-! ## The five fields of a word (R101) -/

/-- The fields cover the whole word: no bit lies outside them. -/
theorem word_eq_iff_fields {v w : Word} : v = w ↔ fieldOP v = fieldOP w ∧ fieldRSV v = fieldRSV w ∧
    fieldN v = fieldN w ∧ fieldA v = fieldA w ∧ fieldB v = fieldB w := by
  constructor
  · rintro rfl
    exact ⟨rfl, rfl, rfl, rfl, rfl⟩
  · simp only [fieldOP, fieldN, fieldRSV, fieldA, fieldB, ← BitVec.toNat_inj, BitVec.extractLsb'_toNat,
      Nat.shiftRight_eq_div_pow]
    omega

@[simp] theorem fieldOP_and (v w : Word) : fieldOP (v &&& w) = fieldOP v &&& fieldOP w := BitVec.extractLsb'_and
@[simp] theorem fieldN_and (v w : Word) : fieldN (v &&& w) = fieldN v &&& fieldN w := BitVec.extractLsb'_and
@[simp] theorem fieldRSV_and (v w : Word) : fieldRSV (v &&& w) = fieldRSV v &&& fieldRSV w := BitVec.extractLsb'_and
@[simp] theorem fieldA_and (v w : Word) : fieldA (v &&& w) = fieldA v &&& fieldA w := BitVec.extractLsb'_and
@[simp] theorem fieldB_and (v w : Word) : fieldB (v &&& w) = fieldB v &&& fieldB w := BitVec.extractLsb'_and

section EncodedFields

variable (op : Byte) (n : BitVec 5) (a b : Byte)

@[simp] theorem fieldOP_encodeFields : fieldOP (encodeFields op n a b) = op :=
  (Laws.EncodedFields.encodeFields_op_rsv op n a b).1

@[simp] theorem fieldRSV_encodeFields : fieldRSV (encodeFields op n a b) = 0 :=
  (Laws.EncodedFields.encodeFields_op_rsv op n a b).2

@[simp] theorem fieldN_encodeFields : fieldN (encodeFields op n a b) = n := by
  apply BitVec.eq_of_getLsbD_eq
  intro i hi
  simp [fieldN, encodeFields, hi, show 8 + i < 16 by omega, show 8 + i < 24 by omega, show 8 + i < 32 by omega]

@[simp] theorem fieldA_encodeFields : fieldA (encodeFields op n a b) = a := by
  apply BitVec.eq_of_getLsbD_eq
  intro i hi
  have hop : op.getLsbD (16 + i) = false := BitVec.getLsbD_of_ge _ _ (by omega)
  have hn : n.getLsbD (16 + i - 8) = false := BitVec.getLsbD_of_ge _ _ (by omega)
  simp [fieldA, encodeFields, hop, hn, hi, show 16 + i < 24 by omega, show 16 + i < 32 by omega]

@[simp] theorem fieldB_encodeFields : fieldB (encodeFields op n a b) = b := by
  apply BitVec.eq_of_getLsbD_eq
  intro i hi
  have hop : op.getLsbD (24 + i) = false := BitVec.getLsbD_of_ge _ _ (by omega)
  have hn : n.getLsbD (24 + i - 8) = false := BitVec.getLsbD_of_ge _ _ (by omega)
  have ha : a.getLsbD (24 + i - 16) = false := BitVec.getLsbD_of_ge _ _ (by omega)
  simp [fieldB, encodeFields, hop, hn, ha, hi, show 24 + i < 32 by omega]

end EncodedFields

/-- A word whose RSV is 0 is the encoding of its own fields. -/
theorem encodeFields_fields {w : Word} (hrsv : fieldRSV w = 0) :
    encodeFields (fieldOP w) (fieldN w) (fieldA w) (fieldB w) = w :=
  word_eq_iff_fields.mpr (by simp [hrsv])

/-! ## The rows of R106 read as rows of R103 -/

/-- R103's row of a match and mask pair: it uses the fields its mask leaves out. -/
def Row.info (r : Row) : OpInfo where
  usesN := fieldN r.mask == 0
  usesA := fieldA r.mask == 0
  usesB := fieldB r.mask == 0
  build := r.build

/-- What every row of R106 is: its match is a bare OP, its mask covers OP and RSV and each other field whole or not at all, R103 gives
its OP the same fields and command, and the encoder puts the used fields into that command's word. -/
structure Row.Sound (r : Row) : Prop where
  mtchRSV : fieldRSV r.mtch = 0
  mtchN : fieldN r.mtch = 0
  mtchA : fieldA r.mtch = 0
  mtchB : fieldB r.mtch = 0
  maskOP : fieldOP r.mask = .allOnes 8
  maskRSV : fieldRSV r.mask = .allOnes 3
  maskN : fieldN r.mask = 0 ∨ fieldN r.mask = .allOnes 5
  maskA : fieldA r.mask = 0 ∨ fieldA r.mask = .allOnes 8
  maskB : fieldB r.mask = 0 ∨ fieldB r.mask = .allOnes 8
  info : opInfo (fieldOP r.mtch) = some r.info
  encode_build : ∀ n a b, encode (r.build n a b) = encodeFields (fieldOP r.mtch) (if r.info.usesN then n else 0)
    (if r.info.usesA then a else 0) (if r.info.usesB then b else 0)

theorem sound_of_mem_rows {r : Row} (hr : r ∈ rows) : r.Sound := by
  fin_cases hr <;>
    exact ⟨rfl, rfl, rfl, rfl, rfl, rfl, by decide, by decide, by decide, rfl, fun _ _ _ => rfl⟩

/-- A masked field is 0 exactly if the field is, where the mask does not leave it out. -/
theorem and_mask_eq_zero_iff {k : Nat} {m : BitVec k} (hm : m = 0 ∨ m = .allOnes k) (x : BitVec k) :
    x &&& m = 0 ↔ ((m == 0) = false → x = 0) := by
  by_cases h0 : m = 0
  · simp [h0]
  · have hall := hm.resolve_left h0
    rw [hall, BitVec.and_allOnes, ← hall]
    exact ⟨fun hx _ => hx, fun hx => hx (beq_eq_false_iff_ne.mpr h0)⟩

/-- A word fits a row exactly if it has the row's OP and its RSV and unused fields are 0. -/
theorem fits_iff_of_mem_rows {r : Row} (hr : r ∈ rows) {w : Word} :
    r.fits w = true ↔ fieldOP w = fieldOP r.mtch ∧ unusedZero r.info w := by
  have h := sound_of_mem_rows hr
  simp only [Row.fits, beq_iff_eq, word_eq_iff_fields, fieldOP_and, fieldRSV_and, fieldN_and, fieldA_and, fieldB_and,
    h.maskOP, h.maskRSV, BitVec.and_allOnes, h.mtchRSV, h.mtchN, h.mtchA, h.mtchB, and_mask_eq_zero_iff h.maskN,
    and_mask_eq_zero_iff h.maskA, and_mask_eq_zero_iff h.maskB, unusedZero, Row.info]

/-- No two rows have one OP. -/
theorem rows_op_nodup : (rows.map fun r => fieldOP r.mtch).Nodup := by decide

/-- Every assigned OP has its row. -/
theorem exists_row_of_opInfo_isSome : ∀ op : Byte, (opInfo op).isSome = true → ∃ r ∈ rows, fieldOP r.mtch = op := by
  decide

/-- R103's rows are R106's. -/
theorem opInfo_eq_some_iff {op : Byte} {o : OpInfo} :
    opInfo op = some o ↔ ∃ r ∈ rows, fieldOP r.mtch = op ∧ r.info = o := by
  constructor
  · intro ho
    obtain ⟨r, hr, rfl⟩ := exists_row_of_opInfo_isSome op (by rw [ho]; rfl)
    exact ⟨r, hr, rfl, Option.some.inj ((sound_of_mem_rows hr).info.symm.trans ho)⟩
  · rintro ⟨r, hr, rfl, rfl⟩
    exact (sound_of_mem_rows hr).info

/-! ## The decoder (R104, R106) -/

/-- Two rows that fit one word are the same row. -/
theorem row_eq_of_fits {w : Word} {r r' : Row} (hr : r ∈ rows) (hr' : r' ∈ rows) (hf : r.fits w = true)
    (hf' : r'.fits w = true) : r = r' := by
  obtain ⟨hop, -⟩ := (fits_iff_of_mem_rows hr).mp hf
  obtain ⟨hop', -⟩ := (fits_iff_of_mem_rows hr').mp hf'
  exact List.inj_on_of_nodup_map rows_op_nodup hr hr' (hop.symm.trans hop')

/-- The OPs of the rows that fit a word are its own OP, so there is one such row at most. -/
theorem length_filter_fits_le_one (w : Word) : (rows.filter (Row.fits w)).length ≤ 1 := by
  have hops : (rows.filter (Row.fits w)).map (fun r => fieldOP r.mtch) =
      List.replicate (rows.filter (Row.fits w)).length (fieldOP w) := by
    rw [List.map_eq_replicate_iff]
    intro r hr
    obtain ⟨hr, hf⟩ := List.mem_filter.mp hr
    exact ((fits_iff_of_mem_rows hr).mp hf).1.symm
  rw [← List.nodup_replicate (a := fieldOP w), ← hops]
  exact rows_op_nodup.sublist (List.filter_sublist.map _)

/-- A word decodes to what any row that fits it makes of it (R106). -/
theorem decode_eq_ok_iff_row {w : Word} {i : Instr} :
    decode w = .ok i ↔ ∃ r ∈ rows, r.fits w = true ∧ r.instr w = i := by
  unfold decode
  split
  · next r hfind =>
    have hr := List.mem_of_find?_eq_some hfind
    have hf : r.fits w = true := List.find?_some hfind
    constructor
    · intro h
      exact ⟨r, hr, hf, Except.ok.inj h⟩
    · rintro ⟨r', hr', hf', rfl⟩
      rw [row_eq_of_fits hr hr' hf hf']
  · next hfind =>
    refine ⟨nofun, ?_⟩
    rintro ⟨r, hr, hf, -⟩
    exact absurd hf (List.find?_eq_none.mp hfind r hr)

/-- A word decodes exactly if its OP is assigned and its RSV and unused fields are 0, steps 1 to 3 of R104. -/
theorem decode_eq_ok_iff {w : Word} {i : Instr} :
    decode w = .ok i ↔ ∃ o, opInfo (fieldOP w) = some o ∧ unusedZero o w ∧
      o.build (fieldN w) (fieldA w) (fieldB w) = i := by
  rw [decode_eq_ok_iff_row]
  constructor
  · rintro ⟨r, hr, hf, hi⟩
    obtain ⟨hop, hu⟩ := (fits_iff_of_mem_rows hr).mp hf
    exact ⟨r.info, opInfo_eq_some_iff.mpr ⟨r, hr, hop.symm, rfl⟩, hu, hi⟩
  · rintro ⟨o, ho, hu, hi⟩
    obtain ⟨r, hr, hop, rfl⟩ := opInfo_eq_some_iff.mp ho
    exact ⟨r, hr, (fits_iff_of_mem_rows hr).mpr ⟨hop.symm, hu⟩, hi⟩

/-- The decoder has one error only. -/
theorem decode_eq_illegalCommand {w : Word} (h : ∀ i, decode w ≠ .ok i) : decode w = .error .illegalCommand := by
  unfold decode at h ⊢
  split
  · next r hfind => exact absurd (by rw [hfind]) (h (r.instr w))
  · rfl

/-- A word with an unassigned OP, or a non-zero RSV or unused field, is IllegalCommand (R104, R105). -/
theorem decode_of_not_unusedZero {w : Word} (h : ∀ o, opInfo (fieldOP w) = some o → ¬ unusedZero o w) :
    decode w = .error .illegalCommand := by
  refine decode_eq_illegalCommand fun i hi => ?_
  obtain ⟨o, ho, hu, -⟩ := decode_eq_ok_iff.mp hi
  exact h o ho hu

/-! ## The encoder (R103, R108) -/

/-- Decoding the fields of an assigned OP, with the unused ones 0, gives the command made of them. -/
theorem decode_encodeFields {op : Byte} {n : BitVec 5} {a b : Byte} {o : OpInfo} (ho : opInfo op = some o)
    (hn : o.usesN = false → n = 0) (ha : o.usesA = false → a = 0) (hb : o.usesB = false → b = 0) :
    decode (encodeFields op n a b) = .ok (o.build n a b) :=
  decode_eq_ok_iff.mpr ⟨o, by simpa using ho, by simpa [unusedZero] using ⟨hn, ha, hb⟩, by simp⟩

/-- The bare word of an OP that uses no field. -/
theorem decode_bare {op : Byte} {i : Instr} (h : opInfo op = bare i) : decode (encodeFields op 0 0 0) = .ok i :=
  decode_encodeFields h (fun _ => rfl) (fun _ => rfl) (fun _ => rfl)

/-- The encoder gives each command its row's OP, and a 0 in each field the row does not use. -/
theorem decode_encode (i : Instr) : decode (encode i) = .ok i := by
  cases i with
  | pad n => exact decode_encodeFields (op := 0x20) rfl nofun (fun _ => rfl) (fun _ => rfl)
  | addrk n => exact decode_encodeFields (op := 0x36) rfl nofun (fun _ => rfl) (fun _ => rfl)
  | rcon n => exact decode_encodeFields (op := 0x43) rfl nofun (fun _ => rfl) (fun _ => rfl)
  | gfmul a b => exact decode_encodeFields (op := 0x40) rfl (fun _ => rfl) nofun nofun
  | sbox a => exact decode_encodeFields (op := 0x41) rfl (fun _ => rfl) nofun (fun _ => rfl)
  | invsbox a => exact decode_encodeFields (op := 0x42) rfl (fun _ => rfl) nofun (fun _ => rfl)
  | _ => exact decode_bare rfl

/-- A field that is 0 where it is unused is the field the encoder writes. -/
theorem ite_eq_of_unused_eq_zero {k : Nat} {used : Bool} {x : BitVec k} (h : used = false → x = 0) :
    (if used then x else 0) = x := by
  cases used
  · exact (h rfl).symm
  · rfl

/-- A word that decodes is the encoding of its command. -/
theorem encode_of_decode {w : Word} {i : Instr} (h : decode w = .ok i) : encode i = w := by
  obtain ⟨r, hr, hf, rfl⟩ := decode_eq_ok_iff_row.mp h
  obtain ⟨hop, hrsv, hn, ha, hb⟩ := (fits_iff_of_mem_rows hr).mp hf
  rw [Row.instr, (sound_of_mem_rows hr).encode_build, ite_eq_of_unused_eq_zero hn, ite_eq_of_unused_eq_zero ha,
    ite_eq_of_unused_eq_zero hb, ← hop, encodeFields_fields hrsv]

/-! ## The range check of N (R104 step 4) -/

theorem rangeError_eq_none_iff {i : Instr} : rangeError i = none ↔ WellFormed i := by
  cases i with
  | pad n => simp [rangeError, WellFormed, Instr.wf]
  | addrk n => simp [rangeError, WellFormed, Instr.wf]
  | rcon n => simp [rangeError, WellFormed, Instr.wf]
  | _ => exact ⟨fun _ => rfl, fun _ => rfl⟩

/-- A word that decodes is legal, or has the error of the range check. -/
theorem decodeLegal_of_decode {w : Word} {i : Instr} (h : decode w = .ok i) :
    decodeLegal w = (rangeError i).elim (.ok i) .error := by
  cases hr : rangeError i <;> simp only [decodeLegal, h, hr, Option.elim]

theorem decodeLegal_of_decode_error {w : Word} {e : CommandError} (h : decode w = .error e) :
    decodeLegal w = .error e := by
  rw [decodeLegal, h]

/-- Settles O1: the round trip, and the range check of step 4 splits the encoded commands. -/
theorem decodeEncodeRoundTrip : Obligations.DecodeEncodeRoundTrip := by
  unfold Obligations.DecodeEncodeRoundTrip
  intro i
  rw [decodeLegal_of_decode (decode_encode i)]
  refine ⟨decode_encode i, fun hi => ?legal, fun hi => ?illegal⟩
  case legal => rw [rangeError_eq_none_iff.mpr hi]; rfl
  case illegal =>
    obtain ⟨e, he⟩ := Option.ne_none_iff_exists'.mp (mt rangeError_eq_none_iff.mp hi)
    exact ⟨e, by rw [he]; rfl⟩

/-- Settles O2: the word's fields are those its row's command is encoded with. -/
theorem decodedWordIsItsEncoding : Obligations.DecodedWordIsItsEncoding := by
  unfold Obligations.DecodedWordIsItsEncoding
  exact fun w i => encode_of_decode

/-! ## The field checks in the order written (R106) -/

/-- Steps 2 and 3 of R104 as R106 checks them. -/
theorem unusedZero_iff_checks {o : OpInfo} {w : Word} :
    unusedZero o w ↔ ¬ fieldRSV w ≠ 0 ∧ ¬ (o.usesN = false ∧ fieldN w ≠ 0) ∧ ¬ (o.usesA = false ∧ fieldA w ≠ 0) ∧
      ¬ (o.usesB = false ∧ fieldB w ≠ 0) := by
  simp [unusedZero]

/-- A word that fails one of the first checks is IllegalCommand, whichever check it is. -/
theorem checkedDecode_of_not_unusedZero {w : Word} (h : ∀ o, opInfo (fieldOP w) = some o → ¬ unusedZero o w) :
    checkedDecode w = .error .illegalCommand := by
  unfold checkedDecode
  split
  · rfl
  · next o ho =>
    split_ifs with hrsv hn ha hb
    · rfl
    · rfl
    · rfl
    · rfl
    all_goals exact absurd (unusedZero_iff_checks.mpr ⟨hrsv, hn, ha, hb⟩) (h o ho)

/-- R106's range checks, by OP: the error of the first that fails. -/
def fieldRangeError (op : Byte) (n : BitVec 5) : Option CommandError :=
  if op = 0x36 ∧ n.toNat > 10 then some .illegalCommand
  else if op = 0x43 ∧ (n.toNat < 1 ∨ n.toNat > 10) then some .illegalCommand
  else if op = 0x20 ∧ n.toNat > 15 then some .invalidBlockLength
  else none

/-- After the first checks R106 makes the range checks only. -/
theorem checkedDecode_of_unusedZero {w : Word} {o : OpInfo} (ho : opInfo (fieldOP w) = some o) (hu : unusedZero o w) :
    checkedDecode w = (fieldRangeError (fieldOP w) (fieldN w)).elim
      (.ok (o.build (fieldN w) (fieldA w) (fieldB w))) .error := by
  obtain ⟨hrsv, hn, ha, hb⟩ := unusedZero_iff_checks.mp hu
  unfold checkedDecode fieldRangeError
  simp only [ho, if_neg hrsv, if_neg hn, if_neg ha, if_neg hb]
  split_ifs <;> rfl

/-- A command's range check is that of the OP and N it is encoded with. Three commands have one, which `rangeError` gives by the
legal values and R106 by the others. -/
theorem rangeError_eq_fieldRangeError (i : Instr) :
    rangeError i = fieldRangeError (fieldOP (encode i)) (fieldN (encode i)) := by
  cases i with
  | pad n => grind [rangeError, fieldRangeError, encode, fieldOP_encodeFields, fieldN_encodeFields]
  | addrk n => grind [rangeError, fieldRangeError, encode, fieldOP_encodeFields, fieldN_encodeFields]
  | rcon n => grind [rangeError, fieldRangeError, encode, fieldOP_encodeFields, fieldN_encodeFields]
  | _ => simp [rangeError, fieldRangeError, encode]

theorem decodeLegal_eq_checkedDecode (w : Word) : decodeLegal w = checkedDecode w := by
  by_cases h : ∃ o, opInfo (fieldOP w) = some o ∧ unusedZero o w
  · obtain ⟨o, ho, hu⟩ := h
    have hd : decode w = .ok (o.build (fieldN w) (fieldA w) (fieldB w)) := decode_eq_ok_iff.mpr ⟨o, ho, hu, rfl⟩
    rw [decodeLegal_of_decode hd, checkedDecode_of_unusedZero ho hu, rangeError_eq_fieldRangeError, encode_of_decode hd]
  · have hbad : ∀ o, opInfo (fieldOP w) = some o → ¬ unusedZero o w := fun o ho hu => h ⟨o, ho, hu⟩
    rw [checkedDecode_of_not_unusedZero hbad, decodeLegal_of_decode_error (decode_of_not_unusedZero hbad)]

/-- Settles O3: both decoders split at unusedZero, and a row is found by its OP. -/
theorem decodeMatchesFieldChecks : Obligations.DecodeMatchesFieldChecks := by
  unfold Obligations.DecodeMatchesFieldChecks
  refine ⟨decodeLegal_eq_checkedDecode, fun w i => ?_, length_filter_fits_le_one⟩
  simp only [decode_eq_ok_iff_row, Row.fits, beq_iff_eq]

/-- Settles O4: each word is the encoding of its command, or fails a field check. -/
theorem writtenOutWordsDecode : Obligations.WrittenOutWordsDecode := by
  unfold Obligations.WrittenOutWordsDecode
  have enc {w : Word} {i : Instr} (h : encode i = w) : decode w = .ok i := by rw [← h, decode_encode]
  have pad16 : decodeLegal 0x00001020 = .error .invalidBlockLength := decodeLegal_of_decode (i := .pad 16) (enc rfl)
  have addrk11 : decodeLegal 0x00000B36 = .error .illegalCommand := decodeLegal_of_decode (i := .addrk 11) (enc rfl)
  have rsv1 : decode 0x00002000 = .error .illegalCommand := by decide
  have unusedA : decode 0x00010010 = .error .illegalCommand := by decide
  exact ⟨enc rfl, enc rfl, enc rfl, enc rfl, enc rfl, enc rfl, enc rfl, enc rfl, pad16, enc rfl, enc rfl, addrk11,
    enc rfl, enc rfl, enc rfl, enc rfl, rsv1, unusedA⟩

end Sys2Proof

namespace Sys2Proof.Machine

open Sys2Proof.Reference

/-- Settles O6: the word does not decode, so the core's turn is `raise`. -/
theorem illegalWordsRaiseIllegalCommand : Obligations.IllegalWordsRaiseIllegalCommand := by
  unfold Obligations.IllegalWordsRaiseIllegalCommand
  intro s w hc hp hw
  refine ⟨_, ?_, rfl, id⟩
  rw [step_of_coreNext hc, coreTurn, popped_pending, hp]
  simp only [runCommand, decode_of_not_unusedZero hw, raise_eq]

end Sys2Proof.Machine

namespace Sys2Proof.Machine

open Sys2Proof.Reference

/-! ## The core's turn and the issue (R140, R143) -/

/-- On the core's turn a pending word that decodes runs as its command. -/
theorem step_of_pending {s : State} {w : Word} {i : Instr} (hc : coreNext s) (hp : s.pending = some w)
    (hd : decode w = .ok i) : step s = exec i (popped s) := by
  rw [step_of_coreNext hc, coreTurn, popped_pending, hp]
  simp only [runCommand, hd]

/-- A table word of all 32 bits is the word itself. -/
theorem tableWord_toNat (w : Word) : tableWord 32 w.toNat = w := by
  rw [tableWord, Nat.mod_eq_of_lt w.isLt, BitVec.ofNat_toNat, BitVec.setWidth_eq]

/-- Settles O5: `withFetchWord` issues the word and makes it the core's turn, so its clause is a case of the first. -/
theorem stepRunsDecodedCommand : Obligations.StepRunsDecodedCommand := by
  unfold Obligations.StepRunsDecodedCommand
  refine ⟨fun s w i => step_of_pending, fun s w i hd => ?_⟩
  rw [State.withFetchWord, tableWord_toNat]
  exact step_of_pending (s := place w s) (.inr rfl) rfl hd

/-- Settles O10: NOP is `succeed`. -/
theorem nopOnlyCompletes : Obligations.NopOnlyCompletes := by
  unfold Obligations.NopOnlyCompletes
  exact succeed_eq

/-- Settles O39: CMD is protected, and its write while idle is `issue`. -/
theorem cmdWriteIssues : Obligations.CmdWriteIssues := by
  unfold Obligations.CmdWriteIssues
  refine fun s v => ⟨fun hidle => ⟨issue v s, ?_, ?_, rfl⟩, access_write_protected_busy ⟨rfl, .inl rfl⟩ v⟩
  · rw [access_write_aligned (by decide) rfl]
    exact congrArg (Prod.mk _) (protectedWrite_idle hidle _)
  · simp [irq]

/-! ## STATUS after a completion (R147) -/

/-- Before its completion a command changes no bit of STATUS but KEYV. -/
theorem WritesOf.status_eq {s u : State} (h : WritesOf s u) : u.status = { s.status with keyv := u.status.keyv } :=
  congrArg State.status h

/-- Settles O7: exec completes a state with the STATUS of `s` but for KEYV, and only KEYEXP writes KEYV. -/
theorem statusAfterEveryCompletion : Obligations.StatusAfterEveryCompletion := by
  unfold Obligations.StatusAfterEveryCompletion
  intro i s
  obtain ⟨e, u, hexec, hwrites⟩ := exec_completes i s
  have hstatus := hwrites.status_eq
  have hkeyv : i ≠ .keyexp → u.status.keyv = s.status.keyv := by
    intro hi
    obtain ⟨t, ht, -, hkeyv, -⟩ := exec_keeps_schedule hi s
    obtain rfl := Host.Outcome.next.inj (hexec.symm.trans ht)
    exact hkeyv
  obtain ⟨low, high⟩ := statusWord_reserved (complete e u).status
  refine ⟨complete e u, hexec, rfl, ?busy, ?done, ?err, ?ovr, fun hi => ?keyv, low, ?code, high⟩
  case code => rw [statusWord_errcode, errcodeBits_toNat]
  all_goals simp only [statusWord_getLsbD, statusBit, complete_status]
  case busy => rfl
  case done => rfl
  case err => rw [hstatus]; rfl
  case ovr => rw [hstatus]; rfl
  case keyv => exact hkeyv hi

/-! ## What each command may write, and what an error changes (R145, R148) -/

/-- `u` is `s` but for the registers the command `i` may write before its completion: `WritesOf`, command by command. -/
def WritesAs (i : Instr) (s u : State) : Prop :=
  u = { s with
    status := { s.status with keyv := if i = .keyexp then u.status.keyv else s.status.keyv }
    result := if writesResult i then u.result else s.result
    outlen := if writesOutlen i then u.outlen else s.outlen
    blkcnt := if countsBlock i ∨ i = .init then u.blkcnt else s.blkcnt
    data := if writesData i then u.data else s.data
    chain := if writesChain i then u.chain else s.chain
    rk := if i = .keyexp then u.rk else s.rk }

/-- `s` with KEYV cleared where the error is InvalidKeyLength, the one exception to R145. -/
def clearKeyvOn (e : CommandError) (s : State) : State :=
  { s with status := { s.status with keyv := s.status.keyv && !decide (e = .invalidKeyLength) } }

theorem clearKeyvOn_of_ne {e : CommandError} (he : e ≠ .invalidKeyLength) (s : State) : clearKeyvOn e s = s := by
  simp [clearKeyvOn, he]

/-- The command `i` completes from `s`: with success after writes of its own, or with an error, which writes nothing. -/
def CompletesAs (i : Instr) (s : State) (o : Host.Outcome State Fault Refusal) : Prop :=
  (∃ u, o = .next (succeeded u) ∧ WritesAs i s u) ∨
    (∃ e, o = .next (failed e (clearKeyvOn e s)) ∧ (e = .invalidKeyLength ↔ i = .keyexp))

section
variable {i : Instr} {s u : State} {e : CommandError}

theorem completesAs_succeed (h : WritesAs i s u) : CompletesAs i s (succeed u) :=
  .inl ⟨u, succeed_eq u, h⟩

theorem completesAs_raise (hi : i ≠ .keyexp) (he : e ≠ .invalidKeyLength) :
    CompletesAs i s (raise e s) :=
  .inr ⟨e, by rw [raise_eq, clearKeyvOn_of_ne he], iff_of_false he hi⟩

theorem completesAs_needKey (hi : i ≠ .keyexp) (h : WritesAs i s u) : CompletesAs i s (needKey s (succeed u)) := by
  rcases needKey_cases s (succeed u) with ⟨-, hrun⟩ | ⟨-, hrun⟩ <;> rw [hrun]
  · exact completesAs_raise hi nofun
  · exact completesAs_succeed h

end

/-- Every command completes as its own: the inversion of exec with the registers each command may write. -/
theorem exec_completesAs (i : Instr) (s : State) : CompletesAs i s (exec i s) := by
  cases i with
  | keyexp =>
    simp only [exec, execKeyexp]
    split
    · exact completesAs_succeed rfl
    · exact .inr ⟨.invalidKeyLength, by simp [raise_eq, clearKeyvOn], iff_of_true rfl rfl⟩
  | encEcb => exact completesAs_needKey nofun rfl
  | decEcb => exact completesAs_needKey nofun rfl
  | encCbc => exact completesAs_needKey nofun rfl
  | decCbc => exact completesAs_needKey nofun rfl
  | pad n =>
    simp only [exec, execPad]
    split
    · exact completesAs_succeed rfl
    · exact completesAs_raise nofun nofun
  | unpad =>
    simp only [exec, execUnpad]
    split
    · exact completesAs_raise nofun nofun
    · exact completesAs_succeed rfl
  | addrk n =>
    simp only [exec, execAddrk]
    split
    · exact completesAs_needKey nofun rfl
    · exact completesAs_raise nofun nofun
  | rcon n =>
    simp only [exec, execRcon]
    split
    · exact completesAs_succeed rfl
    · exact completesAs_raise nofun nofun
  | _ => exact completesAs_succeed rfl

/-- Settles O8: the code is an error's only on the second side of `CompletesAs`. -/
theorem failedCommandChangesOnlyStatus : Obligations.FailedCommandChangesOnlyStatus := by
  unfold Obligations.FailedCommandChangesOnlyStatus
  intro i s t e hexec hcode
  rcases exec_completesAs i s with ⟨u, ho, -⟩ | ⟨e', ho, he'⟩ <;>
    obtain rfl := Host.Outcome.next.inj (ho.symm.trans hexec)
  · cases hcode
  · obtain rfl : e' = e := Option.some.inj hcode
    exact ⟨he', rfl⟩

/-- Settles O9: a success writes the command's own registers, and an error none but KEYEXP's KEYV. -/
theorem commandsWriteOnlyTheirRegisters : Obligations.CommandsWriteOnlyTheirRegisters := by
  unfold Obligations.CommandsWriteOnlyTheirRegisters
  intro i s t hexec
  rcases exec_completesAs i s with ⟨u, ho, hwrites⟩ | ⟨e, ho, he⟩ <;>
    obtain rfl := Host.Outcome.next.inj (ho.symm.trans hexec)
  · rw [hwrites]
    exact ⟨⟨rfl, rfl, rfl, rfl, rfl, rfl, rfl, rfl, rfl, rfl⟩, fun h => if_neg (by simp [h]), fun h => if_neg (by simp [h]),
      fun h => if_neg (by simp [h]), fun h => if_neg (by simp [h]), fun h hinit => if_neg (by simp [h, hinit]),
      fun h => ⟨if_neg h, if_neg h⟩⟩
  · refine ⟨⟨rfl, rfl, rfl, rfl, rfl, rfl, rfl, rfl, rfl, rfl⟩, fun _ => rfl, fun _ => rfl, fun _ => rfl, fun _ => rfl,
      fun _ _ => rfl, fun hi => ⟨rfl, ?_⟩⟩
    rw [clearKeyvOn_of_ne (mt he.mp hi)]
    rfl

/-! ## The inputs of the pending command (R141) -/

/-- `s` with what the host can change while BUSY = 1 taken from `host`: IE, DONE, ERR and OVR, the answers and the
count of free values. -/
def touchedAs (host s : State) : State :=
  { s with
    ie := host.ie
    status := { s.status with done := host.status.done, err := host.status.err, ovr := host.status.ovr }
    responses := host.responses
    draws := host.draws }

/-- `t` is `s` but for what the host can change while BUSY = 1, so it holds every input and every result of a command
that `s` holds. -/
def SameInputs (s t : State) : Prop := t = touchedAs t s

theorem SameInputs.trans {s t u : State} (hst : SameInputs s t) (htu : SameInputs t u) : SameInputs s u :=
  calc u = touchedAs u t := htu
    _ = touchedAs u (touchedAs t s) := congrArg (touchedAs u) hst
    _ = touchedAs u s := rfl

theorem sameInputs_transact (tr : Transaction) {s : State} (hb : s.status.busy = true) : SameInputs s (transact tr s) := by
  rw [transact_eq]
  rcases access_cases tr s with ⟨n, h⟩ | ⟨v, h⟩ | ⟨v, -, h⟩ | ⟨-, h⟩ | ⟨v, hidle, -⟩ | ⟨hidle, -⟩
  case inr.inr.inr.inr.inl | inr.inr.inr.inr.inr => exact absurd (hb.symm.trans hidle) nofun
  all_goals rw [h]; rfl

/-- However many transactions come while BUSY = 1, by induction over them: each leaves BUSY at 1 for the next. -/
theorem sameInputs_foldl_transact (trs : List Transaction) {s : State} (hb : s.status.busy = true) :
    SameInputs s (trs.foldl (fun u tr => transact tr u) s) := by
  induction trs generalizing s with
  | nil => rfl
  | cons tr trs ih =>
    have hone := sameInputs_transact tr hb
    have hb' : (transact tr s).status.busy = true := by rw [hone]; exact hb
    exact hone.trans (ih hb')

section
variable (host s : State)

@[simp] theorem touchedAs_keylen : (touchedAs host s).keylen = s.keylen := rfl
@[simp] theorem touchedAs_data : (touchedAs host s).data = s.data := rfl
@[simp] theorem touchedAs_blkcnt : (touchedAs host s).blkcnt = s.blkcnt := rfl

/-- A command reads nothing the host can change while BUSY = 1: it ends with the same code and writes the same values. -/
theorem exec_touchedAs (i : Instr) :
    ∃ u v, exec i s = .next u ∧ exec i (touchedAs host s) = .next v ∧ SameInputs u v := by
  have key : ∀ u v, SameInputs (complete none u) (complete none v) →
      ∃ u' v', needKey s (succeed u) = .next u' ∧ needKey (touchedAs host s) (succeed v) = .next v' ∧ SameInputs u' v' := by
    intro u v huv
    cases hk : s.status.keyv with
    | false => exact ⟨_, _, needKey_of_not_keyv hk _, needKey_of_not_keyv (s := touchedAs host s) hk _, rfl⟩
    | true => exact ⟨_, _, needKey_of_keyv hk _, needKey_of_keyv (s := touchedAs host s) hk _, huv⟩
  cases i with
  | keyexp =>
    by_cases hlen : s.keylen = 16 <;> simp only [exec, execKeyexp, touchedAs_keylen, hlen] <;> exact ⟨_, _, rfl, rfl, rfl⟩
  | encEcb => exact key _ _ rfl
  | decEcb => exact key _ _ rfl
  | encCbc => exact key _ _ rfl
  | decCbc => exact key _ _ rfl
  | pad n =>
    simp only [exec, execPad]
    split <;> exact ⟨_, _, rfl, rfl, rfl⟩
  | unpad =>
    simp only [exec, execUnpad, touchedAs_data, touchedAs_blkcnt]
    split <;> exact ⟨_, _, rfl, rfl, rfl⟩
  | addrk n =>
    simp only [exec, execAddrk]
    split
    · exact key _ _ rfl
    · exact ⟨_, _, rfl, rfl, rfl⟩
  | rcon n =>
    simp only [exec, execRcon]
    split <;> exact ⟨_, _, rfl, rfl, rfl⟩
  | _ => exact ⟨_, _, rfl, rfl, rfl⟩

end

/-- Settles O45: the transactions leave the same inputs, and a command on the same inputs gives the same results. -/
theorem pendingCommandInputsFrozen : Obligations.PendingCommandInputsFrozen := by
  unfold Obligations.PendingCommandInputsFrozen
  rintro s trs hb t rfl
  have hin := sameInputs_foldl_transact trs hb
  rw [hin]
  refine ⟨⟨rfl, rfl, rfl, rfl, rfl, rfl, rfl, rfl, rfl, rfl, hb⟩, fun i => ?_⟩
  obtain ⟨u, v, hu, hv, hres⟩ := exec_touchedAs _ s i
  refine ⟨u, v, hu, hv, ?_⟩
  rw [hres]
  exact ⟨rfl, rfl, rfl, rfl, rfl, rfl, rfl, rfl⟩

end Sys2Proof.Machine

namespace Sys2Proof.Machine

open Sys2Proof.Reference

/-! ## Field arithmetic: xtime and the loop of gmul (R160, R161) -/

/-- R160's second form, whose two parts are both linear in the bits of b. -/
theorem xtime_eq (b : Byte) : xtime b = b <<< 1 ^^^ if b.getLsbD 7 then 0x1B else 0 := by
  revert b
  decide +kernel

/-- A term selected by the XOR of two bits is the XOR of the terms each of them selects. -/
theorem ite_xor_bits (c d : Bool) (z : Byte) :
    (if (c ^^ d) then z else 0) = (if c then z else 0) ^^^ (if d then z else 0) := by
  cases c <;> cases d <;> simp

theorem xtime_xor (x y : Byte) : xtime (x ^^^ y) = xtime x ^^^ xtime y := by
  simp only [xtime_eq, BitVec.shiftLeft_xor_distrib, BitVec.getLsbD_xor, ite_xor_bits]
  ac_rfl

theorem gmulLoop_succ (b : Byte) (n i : Nat) (t p : Byte) :
    gmulLoop b (n + 1) i t p = gmulLoop b n (i + 1) (xtime t) (p ^^^ if b.getLsbD i then t else 0) := by
  rw [gmulLoop]
  split <;> simp

theorem gmulLoop_xor_start (b : Byte) (n i : Nat) (t t' p p' : Byte) :
    gmulLoop b n i (t ^^^ t') (p ^^^ p') = gmulLoop b n i t p ^^^ gmulLoop b n i t' p' := by
  induction n generalizing i t t' p p' with
  | zero => rfl
  | succ n ih =>
    rw [gmulLoop, gmulLoop, gmulLoop, xtime_xor, ← ih]
    congr 1
    split <;> ac_rfl

theorem gmulLoop_xor_multiplier (b c : Byte) (n i : Nat) (t p p' : Byte) :
    gmulLoop (b ^^^ c) n i t (p ^^^ p') = gmulLoop b n i t p ^^^ gmulLoop c n i t p' := by
  induction n generalizing i t p p' with
  | zero => rfl
  | succ n ih =>
    rw [gmulLoop_succ, gmulLoop_succ, gmulLoop_succ, ← ih, BitVec.getLsbD_xor, ite_xor_bits]
    congr 1
    ac_rfl

/-- What holds of the loop's t and p, and is kept by xtime and by XOR, holds of its result. -/
theorem gmulLoop_induction {P : Byte → Prop} (hxtime : ∀ x, P x → P (xtime x))
    (hxor : ∀ x y, P x → P y → P (x ^^^ y)) (b : Byte) (n i : Nat) {t p : Byte} (ht : P t) (hp : P p) :
    P (gmulLoop b n i t p) := by
  induction n generalizing i t p with
  | zero => exact hp
  | succ n ih =>
    refine ih (i + 1) (hxtime t ht) ?_
    split
    · exact hxor p t hp ht
    · exact hp

/-! ## The field laws (R162) -/

theorem gmul_xor_left (a a' b : Byte) : gmul (a ^^^ a') b = gmul a b ^^^ gmul a' b :=
  gmulLoop_xor_start b 8 0 a a' 0 0

theorem gmul_xor_right (a b c : Byte) : gmul a (b ^^^ c) = gmul a b ^^^ gmul a c :=
  gmulLoop_xor_multiplier b c 8 0 a 0 0

@[simp] theorem gmul_zero_right (a : Byte) : gmul a 0 = 0 := by simp [gmul, gmulLoop]

@[simp] theorem gmul_one_right (a : Byte) : gmul a 1 = a := by simp [gmul, gmulLoop]

@[simp] theorem gmul_one_left (b : Byte) : gmul 1 b = b := by
  revert b
  decide +kernel

/-- The bytes are what 1 gives under xtime and XOR, as gmul computes each byte b from 1 with them. -/
theorem byte_induction {P : Byte → Prop} (hone : P 1) (hxtime : ∀ x, P x → P (xtime x))
    (hxor : ∀ x y, P x → P y → P (x ^^^ y)) (b : Byte) : P b := by
  have hzero : P 0 := hxor 1 1 hone hone
  rw [← gmul_one_left b]
  exact gmulLoop_induction hxtime hxor b 8 0 hone hzero

theorem gmulLoop_xtime (b : Byte) (n i : Nat) (t p : Byte) :
    gmulLoop b n i (xtime t) (xtime p) = xtime (gmulLoop b n i t p) := by
  induction n generalizing i t p with
  | zero => rfl
  | succ n ih =>
    rw [gmulLoop, gmulLoop, ← ih, ← xtime_xor, apply_ite xtime]

theorem gmul_xtime_left (a b : Byte) : gmul (xtime a) b = xtime (gmul a b) :=
  gmulLoop_xtime b 8 0 a 0

theorem gmul_xtime_right (a b : Byte) : gmul a (xtime b) = xtime (gmul a b) := by
  induction a using byte_induction with
  | hone => rw [gmul_one_left, gmul_one_left]
  | hxtime x ih => rw [gmul_xtime_left, gmul_xtime_left, ih]
  | hxor x y ihx ihy => rw [gmul_xor_left, gmul_xor_left, xtime_xor, ihx, ihy]

theorem gmul_comm (a b : Byte) : gmul a b = gmul b a := by
  induction b using byte_induction with
  | hone => rw [gmul_one_right, gmul_one_left]
  | hxtime x ih => rw [gmul_xtime_right, gmul_xtime_left, ih]
  | hxor x y ihx ihy => rw [gmul_xor_right, gmul_xor_left, ihx, ihy]

theorem gmul_assoc (a b c : Byte) : gmul (gmul a b) c = gmul a (gmul b c) := by
  induction a using byte_induction with
  | hone => rw [gmul_one_left, gmul_one_left]
  | hxtime x ih => rw [gmul_xtime_left, gmul_xtime_left, gmul_xtime_left, ih]
  | hxor x y ihx ihy => rw [gmul_xor_left, gmul_xor_left, gmul_xor_left, ihx, ihy]

/-- a to the power 254, the inverse of a byte a ≠ 0 as the nonzero bytes are a group of order 255: six turns of "square and
multiply by a" give the power 127. -/
def powInverse (a : Byte) : Byte :=
  let r := (fun r => gmul (gmul r r) a)^[6] a
  gmul r r

theorem gmul_powInverse {a : Byte} (ha : a ≠ 0) : gmul a (powInverse a) = 1 := by
  revert a
  decide +kernel

theorem gmul_inverse_unique {a x y : Byte} (hx : gmul a x = 1) (hy : gmul a y = 1) : x = y :=
  calc x = gmul x (gmul a y) := by rw [hy, gmul_one_right]
    _ = gmul (gmul a x) y := by rw [← gmul_assoc, gmul_comm x a]
    _ = y := by rw [hx, gmul_one_left]

/-- Settles O12: all but the inverse follow from the loop's linearity by `byte_induction`. -/
theorem gmulFieldLaws : Obligations.GmulFieldLaws := by
  unfold Obligations.GmulFieldLaws
  intro a b c
  refine ⟨gmul_comm a b, gmul_assoc a b c, gmul_xor_right a b c, gmul_one_right a, gmul_zero_right a, fun ha => ?_⟩
  exact ⟨powInverse a, gmul_powInverse ha, fun _ hx => gmul_inverse_unique hx (gmul_powInverse ha)⟩

/-! ## gmul is the product of polynomials modulo 0x11B (R161) -/

/-- The polynomial x is q * 0x11B + r for a quotient q of `n` bits. -/
def Reduces (n : Nat) (x : BitVec 16) (r : Byte) : Prop :=
  ∃ q : BitVec n, x = polyMul (q.setWidth 16) 0x11B ^^^ r.setWidth 16

theorem isProduct_iff_reduces (a b r : Byte) :
    IsProduct a b r ↔ Reduces 7 (polyMul (a.setWidth 16) (b.setWidth 16)) r := Iff.rfl

/-- The terms of 0x11B, written out. -/
theorem polyMul_modulus (q : BitVec 16) : polyMul q 0x11B = q ^^^ q <<< 1 ^^^ q <<< 3 ^^^ q <<< 4 ^^^ q <<< 8 := by
  simp [polyMul, List.range_succ]

theorem polyMul_modulus_xor (q q' : BitVec 16) : polyMul (q ^^^ q') 0x11B = polyMul q 0x11B ^^^ polyMul q' 0x11B := by
  simp only [polyMul_modulus, BitVec.shiftLeft_xor_distrib]
  ac_rfl

theorem polyMul_modulus_shiftLeft_one (q : BitVec 16) : polyMul (q <<< 1) 0x11B = polyMul q 0x11B <<< 1 := by
  simp only [polyMul_modulus, BitVec.shiftLeft_xor_distrib, ← BitVec.shiftLeft_add]

theorem reduces_self (n : Nat) (r : Byte) : Reduces n (r.setWidth 16) r :=
  ⟨0, by rw [polyMul_modulus]; simp⟩

theorem Reduces.mono {m n : Nat} (hmn : m ≤ n) {x : BitVec 16} {r : Byte} (h : Reduces m x r) : Reduces n x r := by
  obtain ⟨q, hq⟩ := h
  exact ⟨q.setWidth n, by rw [BitVec.setWidth_setWidth (by omega), hq]⟩

theorem Reduces.xor {n : Nat} {x y : BitVec 16} {r r' : Byte} (hx : Reduces n x r) (hy : Reduces n y r') :
    Reduces n (x ^^^ y) (r ^^^ r') := by
  obtain ⟨q, rfl⟩ := hx
  obtain ⟨q', rfl⟩ := hy
  refine ⟨q ^^^ q', ?_⟩
  rw [BitVec.setWidth_xor, BitVec.setWidth_xor, polyMul_modulus_xor]
  ac_rfl

theorem setWidth_concat {n : Nat} (q : BitVec n) (c : Bool) :
    (q.concat c).setWidth 16 = q.setWidth 16 <<< 1 ^^^ if c then 1 else 0 := by
  ext i hi
  cases i <;> cases c <;> simp

/-- xtime takes off 0x11B once where the shift leaves the byte. -/
theorem shiftLeft_one_eq_xtime (r : Byte) :
    r.setWidth 16 <<< 1 = polyMul (if r.getLsbD 7 then 1 else 0) 0x11B ^^^ (xtime r).setWidth 16 := by
  revert r
  decide +kernel

/-- xtime is multiplication by x modulo 0x11B (R160): the shift gives the quotient one more bit. -/
theorem Reduces.shiftLeft_one {n : Nat} {x : BitVec 16} {r : Byte} (h : Reduces n x r) :
    Reduces (n + 1) (x <<< 1) (xtime r) := by
  obtain ⟨q, rfl⟩ := h
  refine ⟨q.concat (r.getLsbD 7), ?_⟩
  rw [setWidth_concat, polyMul_modulus_xor, polyMul_modulus_shiftLeft_one, BitVec.shiftLeft_xor_distrib,
    shiftLeft_one_eq_xtime, BitVec.xor_assoc]

/-- The sum of the terms of `polyMul` from the lowest `n` bits of y. -/
def partialProduct (x y : BitVec 16) (n : Nat) : BitVec 16 :=
  (List.range n).foldl (fun p i => if y.getLsbD i then p ^^^ (x <<< i) else p) 0

theorem partialProduct_succ (x y : BitVec 16) (n : Nat) :
    partialProduct x y (n + 1) = if y.getLsbD n then partialProduct x y n ^^^ x <<< n else partialProduct x y n := by
  rw [partialProduct, List.range_succ, List.foldl_append]
  rfl

theorem polyMul_byte (x : BitVec 16) (b : Byte) :
    polyMul x (b.setWidth 16) = partialProduct x (b.setWidth 16) 8 := by
  have hbit : (b.setWidth 16).getLsbD 8 = false := by simp
  calc polyMul x (b.setWidth 16) = partialProduct x (b.setWidth 16) (8 + 1) := rfl
    _ = partialProduct x (b.setWidth 16) 8 := by rw [partialProduct_succ, hbit]; rfl

/-- The loop's invariant: at bit i, t stands for a * x^i and p for the sum of the terms below bit i. -/
theorem reduces_gmulLoop {x : BitVec 16} {b : Byte} {n i : Nat} (hbits : i + n ≤ 8) {t p : Byte}
    (ht : Reduces i (x <<< i) t) (hp : Reduces 7 (partialProduct x (b.setWidth 16) i) p) :
    Reduces 7 (partialProduct x (b.setWidth 16) (i + n)) (gmulLoop b n i t p) := by
  induction n generalizing i t p with
  | zero => exact hp
  | succ n ih =>
    have hlen : i + (n + 1) = (i + 1) + n := by omega
    rw [hlen]
    have ht' : Reduces (i + 1) (x <<< (i + 1)) (xtime t) := by
      rw [BitVec.shiftLeft_add]
      exact ht.shiftLeft_one
    refine ih (by omega) ht' ?_
    have hbit : (b.setWidth 16).getLsbD i = b.getLsbD i := by
      rw [BitVec.getLsbD_setWidth, decide_eq_true (by omega : i < 16), Bool.true_and]
    rw [partialProduct_succ, hbit]
    split
    · exact hp.xor (ht.mono (by omega))
    · exact hp

theorem isProduct_gmul (a b : Byte) : IsProduct a b (gmul a b) := by
  rw [isProduct_iff_reduces, polyMul_byte]
  refine reduces_gmulLoop (i := 0) (n := 8) le_rfl ?_ (reduces_self 7 0)
  rw [BitVec.shiftLeft_zero]
  exact reduces_self 0 a

/-- Settles O11: GFMUL is `succeed` with gmul's value in RESULT, and the loop of gmul keeps `Reduces`. -/
theorem gfmulWritesPolynomialProduct : Obligations.GfmulWritesPolynomialProduct := by
  unfold Obligations.GfmulWritesPolynomialProduct
  intro a b s
  exact ⟨{ succeeded s with result := gmul a b }, succeed_eq _, rfl, isProduct_gmul a b⟩

end Sys2Proof.Machine

namespace Sys2Proof.Machine

open Sys2Proof.Reference

/-! ## The S-box ROMs (R182, R183): each lemma reads every entry of a table once, with the byte as its address -/

@[simp] theorem invSbox_sbox (b : Byte) : invSbox (sbox b) = b := by
  revert b
  decide +kernel

@[simp] theorem sbox_invSbox (b : Byte) : sbox (invSbox b) = b := by
  revert b
  decide +kernel

theorem sbox_ne_self (b : Byte) : sbox b ≠ b := by
  revert b
  decide +kernel

theorem sbox_ne_not (b : Byte) : sbox b ≠ ~~~b := by
  revert b
  decide +kernel

/-- The forward ROM holds R183's reference values, with the inverse computed as a power. -/
theorem sbox_eq_affine_powInverse (b : Byte) : sbox b = affine (powInverse b) := by
  revert b
  decide +kernel

/-- 0 has the power 0, so the power is R183's inv at every byte. -/
theorem eq_powInverse_of_isInv {a b : Byte} (h : IsInv a b) : b = powInverse a := by
  rcases h with ⟨rfl, rfl⟩ | hab
  case inl => decide +kernel
  case inr =>
    have ha : a ≠ 0 := by
      rintro rfl
      rw [gmul_comm, gmul_zero_right] at hab
      exact absurd hab (by decide)
    exact gmul_inverse_unique hab (gmul_powInverse ha)

theorem sbox_eq_affine_of_isInv {a b : Byte} (h : IsInv a b) : sbox a = affine b := by
  rw [sbox_eq_affine_powInverse, ← eq_powInverse_of_isInv h]

/-! ## The commands that read them (R184, R185) -/

theorem exec_sbox (a : Byte) (s : State) : exec (.sbox a) s = .next { succeeded s with result := sbox a } :=
  succeed_eq _

theorem exec_invsbox (a : Byte) (s : State) : exec (.invsbox a) s = .next { succeeded s with result := invSbox a } :=
  succeed_eq _

/-- Settles O13: a byte has one inverse, so the forward ROM holds its affine map, and the inverse ROM undoes the forward one. -/
theorem sboxIsAffineOfInverse : Obligations.SboxIsAffineOfInverse := by
  unfold Obligations.SboxIsAffineOfInverse
  intro a b s hinv
  rw [exec_sbox, exec_invsbox, ← sbox_eq_affine_of_isInv hinv, invSbox_sbox]
  exact ⟨rfl, rfl⟩

/-- Settles O14: the second command's RESULT is the table entry at the first one's, whatever else the state holds. -/
theorem sboxAndInvsboxUndoEachOther : Obligations.SboxAndInvsboxUndoEachOther := by
  unfold Obligations.SboxAndInvsboxUndoEachOther
  intro a s
  refine ⟨⟨_, _, exec_sbox a s, exec_invsbox _ _, ?undone, sbox_ne_self a, sbox_ne_not a⟩,
    ⟨_, _, exec_invsbox a s, exec_sbox _ _, ?redone⟩⟩
  case undone => exact invSbox_sbox a
  case redone => exact sbox_invSbox a

end Sys2Proof.Machine

namespace Sys2Proof.Machine

/-! ## The round constants (R200, R210) -/

/-- R200's recurrence: each constant is the one before it times x. -/
theorem rcon_succ {j : Nat} (h1 : 1 ≤ j) (h10 : j < 10) : rcon (j + 1) = xtime (rcon j) := by
  interval_cases j <;> rfl

theorem exec_rcon_of_legal {n : BitVec 5} (h : 1 ≤ n.toNat ∧ n.toNat ≤ 10) (s : State) :
    exec (.rcon n) s = .next { succeeded s with result := rcon n.toNat } :=
  (if_pos h).trans (succeed_eq _)

theorem exec_rcon_of_out_of_range {n : BitVec 5} (h : ¬(1 ≤ n.toNat ∧ n.toNat ≤ 10)) (s : State) :
    exec (.rcon n) s = .next (failed .illegalCommand s) :=
  (if_neg h).trans (raise_eq _ _)

/-- Settles O15: RESULT is the ROM's entry, and the ROM's entries double from 0x01 on. -/
theorem rconReadsRoundConstants : Obligations.RconReadsRoundConstants := by
  unfold Obligations.RconReadsRoundConstants
  intro n s
  refine ⟨fun h => ⟨_, exec_rcon_of_legal h s, rfl, ?first, ?next⟩, fun h => exec_rcon_of_out_of_range (by omega) s⟩
  case first =>
    intro h1
    exact congrArg rcon h1
  case next =>
    intro h1
    have hprev : (n - 1).toNat = n.toNat - 1 := BitVec.toNat_sub_of_le h.1
    have hlegal : 1 ≤ (n - 1).toNat ∧ (n - 1).toNat ≤ 10 := by omega
    refine ⟨_, exec_rcon_of_legal hlegal s, ?_⟩
    have hsucc : rcon (n.toNat - 1 + 1) = xtime (rcon (n.toNat - 1)) := rcon_succ (by omega) (by omega)
    rwa [Nat.sub_add_cancel h.1, ← hprev] at hsucc

/-! ## RotWord and SubWord by bytes (R201, R202) -/

/-- The low three bytes of a word move up by one place, and the high byte comes round to the bottom. -/
theorem rotWord_eq_wordOfBytes (w : Word) :
    rotWord w = wordOfBytes (wordByte w 1) (wordByte w 2) (wordByte w 3) (wordByte w 0) := by
  have middle : w.extractLsb' 16 8 ++ w.extractLsb' 8 8 = w.extractLsb' 8 16 :=
    BitVec.extractLsb'_append_extractLsb'_eq_extractLsb' rfl
  have low : w.extractLsb' 8 16 ++ w.extractLsb' 0 8 = w.extractLsb' 0 24 :=
    BitVec.extractLsb'_append_extractLsb'_eq_extractLsb' rfl
  rw [rotWord, ← low, ← middle]
  rfl

theorem wordByte_rotWord (w : Word) (j : Fin 4) : wordByte (rotWord w) j = wordByte w (j + 1) := by
  rw [rotWord_eq_wordOfBytes, wordByte_wordOfBytes]
  fin_cases j <;> rfl

theorem wordByte_subWord (w : Word) (j : Fin 4) : wordByte (subWord w) j = sbox (wordByte w j) := by
  rw [subWord, wordByte_wordOfBytes]
  fin_cases j <;> rfl

/-! ## The key schedule (R203 to R205) -/

/-- The words w[i-4], ..., w[i+n-1] of R204's loop: four words and the n that expandFrom makes of them. -/
def scheduleFrom (n i : Nat) (a b c d : Word) : List Word := a :: b :: c :: d :: expandFrom n i a b c d

@[simp] theorem length_scheduleFrom (n i : Nat) (a b c d : Word) : (scheduleFrom n i a b c d).length = n + 4 := by
  simp [scheduleFrom, length_expandFrom]

/-- R204's recurrence holds at every word the loop makes; the turn that makes word k of the list is turn k - 1 of the rest of the loop. -/
theorem scheduleFrom_recurrence {n k : Nat} (hk : k < n) (i : Nat) (a b c d : Word) :
    (scheduleFrom n i a b c d)[k + 4]'(by simpa) =
      (scheduleFrom n i a b c d)[k]'(by simp; omega) ^^^
        scheduleTerm (k + i) ((scheduleFrom n i a b c d)[k + 3]'(by simp; omega)) := by
  induction n generalizing k i a b c d with
  | zero => omega
  | succ n ih =>
    cases k with
    | zero =>
      rw [Nat.zero_add i]
      rfl
    | succ k =>
      rw [Nat.succ_add_eq_add_succ k i]
      exact ih (Nat.lt_of_succ_lt_succ hk) (i + 1) b c d (a ^^^ scheduleTerm i d)

/-- The schedule's words are those of the loop, from R204's start at i = 4. -/
theorem keyExpand_getElem (key : Block) (i : Nat) (hi : i < 44) :
    (keyExpand key)[i] =
      (scheduleFrom 40 4 (keyWord key 0) (keyWord key 1) (keyWord key 2) (keyWord key 3))[i]'(by simpa) := rfl

theorem keyExpand_recurrence (key : Block) {i : Nat} (h4 : 4 ≤ i) (h44 : i < 44) :
    (keyExpand key)[i] = (keyExpand key)[i - 4] ^^^ scheduleTerm i (keyExpand key)[i - 1] := by
  obtain ⟨k, rfl⟩ := Nat.exists_eq_add_of_le' h4
  simp only [keyExpand_getElem]
  exact scheduleFrom_recurrence (by omega) 4 _ _ _ _

/-- R203: the schedule of the key registers starts with them. -/
theorem keyExpand_blk_getElem (g : Group) (i : Fin 4) : (keyExpand (blk g))[i.val]'(by omega) = g[i] := by
  have hword : keyWord (blk g) i = g[i] := by rw [keyWord, ofBlock_blk]
  rw [← hword, keyExpand_getElem]
  fin_cases i <;> rfl

/-! ## KEYEXP (R208, R209) -/

theorem exec_keyexp_of_keylen {s : State} (h : s.keylen = 16) :
    exec .keyexp s = .next { succeeded s with
      rk := keyExpand (blk s.key), status := { okStatus s.status with keyv := true } } :=
  (if_pos h).trans (succeed_eq _)

theorem exec_keyexp_of_keylen_ne {s : State} (h : s.keylen ≠ 16) :
    exec .keyexp s = .next { failed .invalidKeyLength s with
      status := { errStatus .invalidKeyLength s.status with keyv := false } } :=
  (if_neg h).trans (raise_eq _ _)

/-- Settles O16: the schedule is the list that R204's loop builds, so its recurrence is an induction over the loop's turns. -/
theorem keyexpExpandsKey : Obligations.KeyexpExpandsKey := by
  unfold Obligations.KeyexpExpandsKey
  refine ⟨?bytes, fun s hlen => ⟨_, exec_keyexp_of_keylen hlen, rfl, keyExpand_blk_getElem s.key, ?recurrence⟩⟩
  case bytes =>
    intro w
    exact ⟨wordByte_rotWord w 0, wordByte_rotWord w 1, wordByte_rotWord w 2, wordByte_rotWord w 3,
      wordByte_subWord w 0, wordByte_subWord w 1, wordByte_subWord w 2, wordByte_subWord w 3⟩
  case recurrence =>
    intro i h
    exact keyExpand_recurrence (blk s.key) h.1 h.2

/-- Settles O17: the length check fails, and the error's completion keeps the KEYV that KEYEXP cleared. -/
theorem keyexpRejectsOtherLengths : Obligations.KeyexpRejectsOtherLengths := by
  unfold Obligations.KeyexpRejectsOtherLengths
  exact fun _ hlen => exec_keyexp_of_keylen_ne hlen

/-! ## ADDRK (R206, R236, R244) -/

theorem wordOfBytes_xor (a0 a1 a2 a3 b0 b1 b2 b3 : Byte) :
    wordOfBytes (a0 ^^^ b0) (a1 ^^^ b1) (a2 ^^^ b2) (a3 ^^^ b3) = wordOfBytes a0 a1 a2 a3 ^^^ wordOfBytes b0 b1 b2 b3 := by
  simp only [wordOfBytes, ← BitVec.xor_append]

/-- XOR by bytes is XOR by registers. -/
theorem ofBlock_xorBlock_getElem (a b : Block) (n : Nat) (hn : n < 4) :
    (ofBlock (xorBlock a b))[n] = (ofBlock a)[n] ^^^ (ofBlock b)[n] := by
  simp only [ofBlock_getElem, ← wordOfBytes_xor, xorBlock, Vector.getElem_ofFn, Fin.getElem_fin]

theorem ofBlock_roundKey_getElem (rk : Schedule) (k : Fin 11) (j : Nat) (hj : j < 4) :
    (ofBlock (roundKey rk k))[j] = rk[4 * k.val + j] := by
  simp only [roundKey, ofBlock_blk, Vector.getElem_ofFn]

theorem exec_addrk_of_keyv {n : BitVec 5} (hn : n.toNat ≤ 10) {s : State} (hk : s.status.keyv = true) :
    exec (.addrk n) s = .next { succeeded s with
      data := ofBlock (addRoundKey s.rk (blk s.data) ⟨n.toNat, by omega⟩) } := by
  rw [exec, execAddrk, dif_pos hn, needKey_of_keyv hk, transformData_eq]

/-- Settles O21: R236 XORs bytes, and a register of a block's XOR is the XOR of the registers. -/
theorem addrkXorsRoundKeyWords : Obligations.AddrkXorsRoundKeyWords := by
  unfold Obligations.AddrkXorsRoundKeyWords
  intro n s hn hk
  refine ⟨_, exec_addrk_of_keyv hn hk, rfl, fun j => ?_⟩
  simp only [Fin.getElem_fin, addRoundKey, ofBlock_xorBlock_getElem, ofBlock_blk, ofBlock_roundKey_getElem]

end Sys2Proof.Machine

namespace Sys2Proof.Machine

/-! ## Byte-wise maps and row rotations (R230 to R233, R237) -/

theorem mapBytes_mapBytes_cancel {f g : Byte → Byte} (h : ∀ b, f (g b) = b) (s : Block) :
    mapBytes f (mapBytes g s) = s := by
  apply block_ext
  intro r c
  rw [entry_mapBytes, entry_mapBytes, h]

theorem invSubBytes_subBytes (s : Block) : invSubBytes (subBytes s) = s :=
  mapBytes_mapBytes_cancel invSbox_sbox s

theorem subBytes_invSubBytes (s : Block) : subBytes (invSubBytes s) = s :=
  mapBytes_mapBytes_cancel sbox_invSbox s

theorem entry_shiftRows (s : Block) (r c : Fin 4) : entry (shiftRows s) r c = entry s r (c + r) :=
  entry_blockOf _ r c

theorem entry_invShiftRows (s : Block) (r c : Fin 4) : entry (invShiftRows s) r c = entry s r (c - r) :=
  entry_blockOf _ r c

theorem invShiftRows_shiftRows (s : Block) : invShiftRows (shiftRows s) = s := by
  apply block_ext
  intro r c
  rw [entry_invShiftRows, entry_shiftRows, sub_add_cancel]

theorem shiftRows_invShiftRows (s : Block) : shiftRows (invShiftRows s) = s := by
  apply block_ext
  intro r c
  rw [entry_shiftRows, entry_invShiftRows, add_sub_cancel_right]

theorem mapBytes_shiftRows (f : Byte → Byte) (s : Block) : mapBytes f (shiftRows s) = shiftRows (mapBytes f s) := by
  apply block_ext
  intro r c
  rw [entry_mapBytes, entry_shiftRows, entry_shiftRows, entry_mapBytes]

theorem mapBytes_invShiftRows (f : Byte → Byte) (s : Block) :
    mapBytes f (invShiftRows s) = invShiftRows (mapBytes f s) := by
  apply block_ext
  intro r c
  rw [entry_mapBytes, entry_invShiftRows, entry_invShiftRows, entry_mapBytes]

/-! ## Circulant matrices on columns (R234, R235, R237) -/

/-- Each column is multiplied by the circulant matrix whose row 0 is `m0 m1 m2 m3`: the common form of R234 and R235. -/
def circulant (m0 m1 m2 m3 : Byte) (s : Block) : Block :=
  blockOf fun r c =>
    gmul m0 (entry s r c) ^^^ gmul m1 (entry s (r + 1) c) ^^^ gmul m2 (entry s (r + 2) c) ^^^ gmul m3 (entry s (r + 3) c)

/-- R234 leaves out the two coefficients 1. -/
theorem mixColumns_eq_circulant (s : Block) : mixColumns s = circulant 2 3 1 1 s := by
  simp only [mixColumns, circulant, gmul_one_left]

theorem invMixColumns_eq_circulant (s : Block) : invMixColumns s = circulant 14 11 13 9 s := rfl

theorem entry_circulant (m0 m1 m2 m3 : Byte) (s : Block) (r c : Fin 4) :
    entry (circulant m0 m1 m2 m3 s) r c =
      gmul m0 (entry s r c) ^^^ gmul m1 (entry s (r + 1) c) ^^^ gmul m2 (entry s (r + 2) c) ^^^
        gmul m3 (entry s (r + 3) c) :=
  entry_blockOf _ r c

/-- Circulant matrices multiply as polynomials modulo x^4 - 1 do: row indices are taken mod 4. -/
theorem circulant_circulant (n0 n1 n2 n3 m0 m1 m2 m3 : Byte) (s : Block) :
    circulant n0 n1 n2 n3 (circulant m0 m1 m2 m3 s) =
      circulant (gmul n0 m0 ^^^ gmul n1 m3 ^^^ gmul n2 m2 ^^^ gmul n3 m1)
        (gmul n0 m1 ^^^ gmul n1 m0 ^^^ gmul n2 m3 ^^^ gmul n3 m2)
        (gmul n0 m2 ^^^ gmul n1 m1 ^^^ gmul n2 m0 ^^^ gmul n3 m3)
        (gmul n0 m3 ^^^ gmul n1 m2 ^^^ gmul n2 m1 ^^^ gmul n3 m0) s := by
  apply block_ext
  intro r c
  simp only [entry_circulant, gmul_xor_right, gmul_xor_left, gmul_assoc, add_assoc, Fin.reduceAdd, add_zero]
  ac_rfl

theorem gmul_zero_left (b : Byte) : gmul 0 b = 0 := by rw [gmul_comm, gmul_zero_right]

/-- The identity matrix. -/
theorem circulant_identity (s : Block) : circulant 1 0 0 0 s = s := by
  apply block_ext
  intro r c
  simp only [entry_circulant, gmul_one_left, gmul_zero_left]
  simp

/-- The product's coefficients, computed by gmul, are the identity's; so are they in the other order. -/
theorem invMixColumns_mixColumns (s : Block) : invMixColumns (mixColumns s) = s := by
  rw [mixColumns_eq_circulant, invMixColumns_eq_circulant, circulant_circulant]
  exact circulant_identity s

theorem mixColumns_invMixColumns (s : Block) : mixColumns (invMixColumns s) = s := by
  rw [mixColumns_eq_circulant, invMixColumns_eq_circulant, circulant_circulant]
  exact circulant_identity s

theorem addRoundKey_addRoundKey (rk : Schedule) (s : Block) (k : Fin 11) :
    addRoundKey rk (addRoundKey rk s k) k = s :=
  xorBlock_xorBlock s (roundKey rk k)

/-- Settles O20: the S-boxes and the rotations cancel byte by byte, and the two matrices' product is the identity matrix. -/
theorem blockTransformInverseLaws : Obligations.BlockTransformInverseLaws := by
  unfold Obligations.BlockTransformInverseLaws
  intro s rk k
  exact ⟨invSubBytes_subBytes s, subBytes_invSubBytes s, invShiftRows_shiftRows s, shiftRows_invShiftRows s,
    invMixColumns_mixColumns s, mixColumns_invMixColumns s, addRoundKey_addRoundKey rk s k,
    mapBytes_shiftRows sbox s, mapBytes_invShiftRows sbox s, mapBytes_shiftRows invSbox s,
    mapBytes_invShiftRows invSbox s⟩

/-! ## The commands that transform DATA (R238 to R243) -/

/-- The six commands that need no key write the transformed block to DATA, and nothing else but the completion. -/
theorem transformData_writes (f : Block → Block) (s : State) :
    ∃ t, transformData f s = .next t ∧ t = { succeeded s with data := t.data } ∧ blk t.data = f (blk s.data) :=
  ⟨_, transformData_eq f s, rfl, blk_ofBlock _⟩

theorem mapBytes_getElem (f : Byte → Byte) (s : Block) (i : Fin 16) : (mapBytes f s)[i] = f s[i] := by
  simp only [mapBytes, Fin.getElem_fin, Vector.getElem_ofFn]

theorem shiftRows_getElem (s : Block) (r c : Fin 4) :
    (shiftRows s)[4 * c.val + r.val]'(by omega) = s[4 * ((c.val + r.val) % 4) + r.val]'(by omega) :=
  entry_shiftRows s r c

theorem invShiftRows_getElem (s : Block) (r c : Fin 4) :
    (invShiftRows s)[4 * c.val + r.val]'(by omega) = s[4 * ((c.val + 4 - r.val) % 4) + r.val]'(by omega) := by
  have hcol : (c - r).val = (c.val + 4 - r.val) % 4 := by omega
  simp only [← hcol]
  exact entry_invShiftRows s r c

/-- Settles O18: each command is `transformData`, and its block function is read off at one byte. -/
theorem substituteAndShiftTransformBytes : Obligations.SubstituteAndShiftTransformBytes := by
  unfold Obligations.SubstituteAndShiftTransformBytes
  intro s
  refine ⟨?subbytes, ?invsubbytes, ?shiftrows, ?invshiftrows⟩
  case subbytes =>
    obtain ⟨t, hrun, hframe, hdata⟩ := transformData_writes subBytes s
    exact ⟨t, hrun, hframe, fun i => by rw [hdata]; exact mapBytes_getElem sbox _ i⟩
  case invsubbytes =>
    obtain ⟨t, hrun, hframe, hdata⟩ := transformData_writes invSubBytes s
    exact ⟨t, hrun, hframe, fun i => by rw [hdata]; exact mapBytes_getElem invSbox _ i⟩
  case shiftrows =>
    obtain ⟨t, hrun, hframe, hdata⟩ := transformData_writes shiftRows s
    exact ⟨t, hrun, hframe, fun r c => by simp only [hdata, shiftRows_getElem]⟩
  case invshiftrows =>
    obtain ⟨t, hrun, hframe, hdata⟩ := transformData_writes invShiftRows s
    exact ⟨t, hrun, hframe, fun r c => by simp only [hdata, invShiftRows_getElem]⟩

/-- The rows of a circulant matrix: each is the one above it, rotated by one place. -/
theorem circulant_rows (m0 m1 m2 m3 : Byte) (s : Block) (c : Fin 4) :
    entry (circulant m0 m1 m2 m3 s) 0 c =
      gmul m0 (entry s 0 c) ^^^ gmul m1 (entry s 1 c) ^^^ gmul m2 (entry s 2 c) ^^^ gmul m3 (entry s 3 c) ∧
    entry (circulant m0 m1 m2 m3 s) 1 c =
      gmul m3 (entry s 0 c) ^^^ gmul m0 (entry s 1 c) ^^^ gmul m1 (entry s 2 c) ^^^ gmul m2 (entry s 3 c) ∧
    entry (circulant m0 m1 m2 m3 s) 2 c =
      gmul m2 (entry s 0 c) ^^^ gmul m3 (entry s 1 c) ^^^ gmul m0 (entry s 2 c) ^^^ gmul m1 (entry s 3 c) ∧
    entry (circulant m0 m1 m2 m3 s) 3 c =
      gmul m1 (entry s 0 c) ^^^ gmul m2 (entry s 1 c) ^^^ gmul m3 (entry s 2 c) ^^^ gmul m0 (entry s 3 c) := by
  simp only [entry_circulant, Fin.reduceAdd, zero_add, true_and]
  refine ⟨?_, ?_, ?_⟩ <;> ac_rfl

/-- Settles O19: both matrices are circulant, and their rows are read off at each column. -/
theorem mixColumnsMultipliesByMatrix : Obligations.MixColumnsMultipliesByMatrix := by
  unfold Obligations.MixColumnsMultipliesByMatrix
  intro s
  obtain ⟨t, runt, framet, datat⟩ := transformData_writes mixColumns s
  obtain ⟨u, runu, frameu, datau⟩ := transformData_writes invMixColumns s
  refine ⟨t, u, runt, runu, framet, frameu, fun c a0 a1 a2 a3 h0 h1 h2 h3 => ?_⟩
  rw [h0, h1, h2, h3]
  obtain ⟨t0, t1, t2, t3⟩ := circulant_rows 2 3 1 1 (blk s.data) c
  obtain ⟨u0, u1, u2, u3⟩ := circulant_rows 14 11 13 9 (blk s.data) c
  simp only [← mixColumns_eq_circulant, ← datat, gmul_one_left] at t0 t1 t2 t3
  rw [← invMixColumns_eq_circulant, ← datau] at u0 u1 u2 u3
  exact ⟨t0, t1, t2, t3, u0, u1, u2, u3⟩

/-! ## The commands that need a key, without one (R244, R325) -/

theorem exec_addrk_of_out_of_range {n : BitVec 5} (hn : ¬ n.toNat ≤ 10) (s : State) :
    exec (.addrk n) s = .next (failed .illegalCommand s) :=
  (dif_neg hn).trans (raise_eq _ _)

theorem exec_addrk_of_not_keyv {n : BitVec 5} (hn : n.toNat ≤ 10) {s : State} (hk : s.status.keyv = false) :
    exec (.addrk n) s = .next (failed .noKey s) :=
  (dif_pos hn).trans (needKey_of_not_keyv hk _)

/-- Settles O22: ADDRK checks its range before `needKey`, and the cipher commands start with `needKey`. -/
theorem keyCommandsRaiseNoKey : Obligations.KeyCommandsRaiseNoKey := by
  unfold Obligations.KeyCommandsRaiseNoKey
  intro n s
  refine ⟨fun hn => exec_addrk_of_out_of_range (by omega) s, fun hk => ⟨fun hn => exec_addrk_of_not_keyv hn hk, ?_⟩⟩
  exact ⟨needKey_of_not_keyv hk _, needKey_of_not_keyv hk _, needKey_of_not_keyv hk _, needKey_of_not_keyv hk _⟩

end Sys2Proof.Machine

namespace Sys2Proof.Machine

open Sys2Proof.Reference

/-! ## The cipher commands with a valid key (R264 to R266, R284, R285) -/

/-- `s` after an ECB command that maps the block in DATA by `f`, the key schedule its first argument. -/
def afterEcb (f : Schedule → Block → Block) (s : State) : State :=
  { succeeded s with data := ofBlock (f s.rk (blk s.data)), blkcnt := satInc s.blkcnt }

section
variable {s : State} (hk : s.status.keyv = true)
include hk

theorem exec_encEcb_of_keyv : exec .encEcb s = .next (afterEcb cipher s) :=
  (needKey_of_keyv hk _).trans (succeed_eq _)

theorem exec_decEcb_of_keyv : exec .decEcb s = .next (afterEcb invCipher s) :=
  (needKey_of_keyv hk _).trans (succeed_eq _)

theorem exec_encCbc_of_keyv :
    exec .encCbc s = .next { succeeded s with
      data := ofBlock (cipher s.rk (xorBlock (blk s.data) (blk s.chain)))
      chain := ofBlock (cipher s.rk (xorBlock (blk s.data) (blk s.chain)))
      blkcnt := satInc s.blkcnt } :=
  (needKey_of_keyv hk _).trans (succeed_eq _)

theorem exec_decCbc_of_keyv :
    exec .decCbc s = .next { succeeded s with
      data := ofBlock (xorBlock (invCipher s.rk (blk s.data)) (blk s.chain))
      chain := ofBlock (blk s.data)
      blkcnt := satInc s.blkcnt } :=
  (needKey_of_keyv hk _).trans (succeed_eq _)

end

theorem countsBlock_iff {i : Instr} :
    countsBlock i = true ↔ i = .encEcb ∨ i = .decEcb ∨ i = .encCbc ∨ i = .decCbc := by
  simp only [countsBlock, Bool.or_eq_true, beq_iff_eq, or_assoc]

/-- Settles O26: the four cipher commands all store `satInc` of BLKCNT. -/
theorem cipherCommandsCountBlocks : Obligations.CipherCommandsCountBlocks := by
  unfold Obligations.CipherCommandsCountBlocks
  intro i s hcounts hk
  have hcount := satInc_toNat s.blkcnt
  rcases countsBlock_iff.mp hcounts with rfl | rfl | rfl | rfl
  · exact ⟨_, exec_encEcb_of_keyv hk, rfl, hcount⟩
  · exact ⟨_, exec_decEcb_of_keyv hk, rfl, hcount⟩
  · exact ⟨_, exec_encCbc_of_keyv hk, rfl, hcount⟩
  · exact ⟨_, exec_decCbc_of_keyv hk, rfl, hcount⟩

/-! ## Round commands one by one (R260, R261) -/

/-- `s` has the valid schedule `rk` and the block `b` in DATA: all that a round command reads. -/
def HoldsBlock (rk : Schedule) (b : Block) (s : State) : Prop :=
  s.status.keyv = true ∧ s.rk = rk ∧ blk s.data = b

/-- With the schedule `rk`, the commands `is` complete one after another and map the block in DATA by `f`. -/
def RunsAs (rk : Schedule) (is : List Instr) (f : Block → Block) : Prop :=
  ∀ b s, HoldsBlock rk b s → ∃ u, runAll is s = .next u ∧ HoldsBlock rk (f b) u

theorem runAll_append {is js : List Instr} {s t : State} (h : runAll is s = .next t) :
    runAll (is ++ js) s = runAll js t := by
  induction is generalizing s with
  | nil =>
    obtain rfl := Host.Outcome.next.inj h
    rfl
  | cons i is ih =>
    rw [runAll] at h
    rw [List.cons_append, runAll]
    cases hi : exec i s with
    | next v =>
      rw [hi] at h
      exact ih h
    | fault f => nomatch f
    | refused r =>
      rw [hi] at h
      cases h

section
variable {rk : Schedule}

theorem runsAs_nil : RunsAs rk [] id := fun _ s h => ⟨s, rfl, h⟩

theorem RunsAs.append {is js : List Instr} {f g : Block → Block} (hf : RunsAs rk is f) (hg : RunsAs rk js g) :
    RunsAs rk (is ++ js) (fun b => g (f b)) := by
  intro b s hs
  obtain ⟨t, ht, hbt⟩ := hf b s hs
  obtain ⟨u, hu, hbu⟩ := hg (f b) t hbt
  exact ⟨u, (runAll_append ht).trans hu, hbu⟩

/-- The commands of the rounds `rs` in a row are the fold of the rounds over `rs`. -/
theorem RunsAs.flatMap {round : Fin 11 → List Instr} {f : Block → Fin 11 → Block}
    (h : ∀ r, RunsAs rk (round r) (f · r)) (rs : List (Fin 11)) : RunsAs rk (rs.flatMap round) (rs.foldl f) := by
  induction rs with
  | nil => exact runsAs_nil
  | cons r rs ih => exact (h r).append ih

/-- One command whose completion writes nothing but the transformed block. -/
theorem runsAs_singleton {i : Instr} {f : Block → Block}
    (h : ∀ s, s.status.keyv = true → s.rk = rk →
      exec i s = .next { succeeded s with data := ofBlock (f (blk s.data)) }) :
    RunsAs rk [i] f := by
  rintro _ s ⟨hk, hrk, rfl⟩
  have hrun : runAll [i] s = .next { succeeded s with data := ofBlock (f (blk s.data)) } := by
    rw [runAll, h s hk hrk]
    rfl
  exact ⟨_, hrun, hk, hrk, blk_ofBlock _⟩

theorem runsAs_subbytes : RunsAs rk [.subbytes] subBytes := runsAs_singleton fun s _ _ => transformData_eq _ s
theorem runsAs_invsubbytes : RunsAs rk [.invsubbytes] invSubBytes := runsAs_singleton fun s _ _ => transformData_eq _ s
theorem runsAs_shiftrows : RunsAs rk [.shiftrows] shiftRows := runsAs_singleton fun s _ _ => transformData_eq _ s
theorem runsAs_invshiftrows : RunsAs rk [.invshiftrows] invShiftRows := runsAs_singleton fun s _ _ => transformData_eq _ s
theorem runsAs_mixcolumns : RunsAs rk [.mixcolumns] mixColumns := runsAs_singleton fun s _ _ => transformData_eq _ s
theorem runsAs_invmixcolumns : RunsAs rk [.invmixcolumns] invMixColumns := runsAs_singleton fun s _ _ => transformData_eq _ s

/-- The command ADDRK with the number of the round `r` in its field N. -/
def addrkRound (r : Fin 11) : Instr := .addrk (BitVec.ofNat 5 r)

theorem runsAs_addrk (r : Fin 11) : RunsAs rk [addrkRound r] (addRoundKey rk · r) := by
  have hr : (BitVec.ofNat 5 r.val).toNat = r.val := Nat.mod_eq_of_lt (by omega)
  refine runsAs_singleton fun s hk hrk => ?_
  rw [addrkRound, exec_addrk_of_keyv (by omega) hk, hrk]
  simp only [hr, Fin.eta]

/-! A composite is elaborated on its own first: the unifier must not search inside the round for its four steps. -/

theorem runsAs_cipherRound (r : Fin 11) :
    RunsAs rk [.subbytes, .shiftrows, .mixcolumns, addrkRound r] (cipherRound rk · r) := by
  have hround := runsAs_subbytes.append (runsAs_shiftrows.append (runsAs_mixcolumns.append (runsAs_addrk (rk := rk) r)))
  exact hround

theorem runsAs_invCipherRound (r : Fin 11) :
    RunsAs rk [addrkRound r, .invmixcolumns, .invshiftrows, .invsubbytes] (invCipherRound rk · r) := by
  have hround := (runsAs_addrk (rk := rk) r).append
    (runsAs_invmixcolumns.append (runsAs_invshiftrows.append runsAs_invsubbytes))
  exact hround

theorem encRounds_eq :
    encRounds = [addrkRound 0] ++
      ([1, 2, 3, 4, 5, 6, 7, 8, 9].flatMap fun r => [.subbytes, .shiftrows, .mixcolumns, addrkRound r]) ++
      [.subbytes, .shiftrows, addrkRound 10] := by
  decide

theorem decRounds_eq :
    decRounds = [addrkRound 10, .invshiftrows, .invsubbytes] ++
      ([9, 8, 7, 6, 5, 4, 3, 2, 1].flatMap fun r => [addrkRound r, .invmixcolumns, .invshiftrows, .invsubbytes]) ++
      [addrkRound 0] := by
  decide

/-- R260's sequence: AddRoundKey 0, the nine full rounds, and the last round without MixColumns. -/
theorem runsAs_encRounds : RunsAs rk encRounds (cipher rk) := by
  rw [encRounds_eq]
  exact ((runsAs_addrk 0).append (.flatMap runsAs_cipherRound [1, 2, 3, 4, 5, 6, 7, 8, 9])).append
    (runsAs_subbytes.append (runsAs_shiftrows.append (runsAs_addrk 10)))

/-- R261's sequence: the last round undone, the nine full rounds, and AddRoundKey 0. -/
theorem runsAs_decRounds : RunsAs rk decRounds (invCipher rk) := by
  rw [decRounds_eq]
  exact (((runsAs_addrk 10).append (runsAs_invshiftrows.append runsAs_invsubbytes)).append
    (.flatMap runsAs_invCipherRound [9, 8, 7, 6, 5, 4, 3, 2, 1])).append (runsAs_addrk 0)

end

/-- Commands that map the block as an ECB command does leave the same DATA. -/
theorem runAll_data_eq_afterEcb {f : Schedule → Block → Block} {is : List Instr} {s : State} (hk : s.status.keyv = true)
    (h : RunsAs s.rk is (f s.rk)) : ∃ u, runAll is s = .next u ∧ (afterEcb f s).data = u.data := by
  obtain ⟨u, hu, -, -, hblk⟩ := h _ s ⟨hk, rfl, rfl⟩
  exact ⟨u, hu, by rw [← ofBlock_blk u.data, hblk]; rfl⟩

/-- Settles O23: the round commands make the fold of `cipher`, and ENC.ECB makes `cipher` at once. -/
theorem encEcbRunsItsRounds : Obligations.EncEcbRunsItsRounds := by
  unfold Obligations.EncEcbRunsItsRounds
  intro s hk
  obtain ⟨u, hu, hdata⟩ := runAll_data_eq_afterEcb hk runsAs_encRounds
  exact ⟨_, u, exec_encEcb_of_keyv hk, hu, hdata, satInc_toNat _, rfl⟩

/-- Settles O24: the round commands make the fold of `invCipher`, and DEC.ECB makes `invCipher` at once. -/
theorem decEcbRunsItsRounds : Obligations.DecEcbRunsItsRounds := by
  unfold Obligations.DecEcbRunsItsRounds
  intro s hk
  obtain ⟨u, hu, hdata⟩ := runAll_data_eq_afterEcb hk runsAs_decRounds
  exact ⟨_, u, exec_decEcb_of_keyv hk, hu, hdata, satInc_toNat _, rfl⟩

/-! ## Encryption and decryption undo each other (R263) -/

/-- Where each step of a fold is undone by a step of another, the other undoes the fold in the reverse order. -/
theorem foldl_reverse_foldl_cancel {α β : Type} {f g : β → α → β} (h : ∀ b a, g (f b a) a = b) (as : List α) (b : β) :
    as.reverse.foldl g (as.foldl f b) = b := by
  induction as generalizing b with
  | nil => rfl
  | cons a as ih => rw [List.foldl_cons, List.reverse_cons, List.foldl_append, ih, List.foldl_cons, h, List.foldl_nil]

section
variable (rk : Schedule)

theorem invCipherRound_cipherRound (b : Block) (r : Fin 11) : invCipherRound rk (cipherRound rk b r) r = b := by
  rw [invCipherRound, cipherRound, addRoundKey_addRoundKey, invMixColumns_mixColumns, invShiftRows_shiftRows,
    invSubBytes_subBytes]

theorem cipherRound_invCipherRound (b : Block) (r : Fin 11) : cipherRound rk (invCipherRound rk b r) r = b := by
  rw [cipherRound, invCipherRound, subBytes_invSubBytes, shiftRows_invShiftRows, mixColumns_invMixColumns,
    addRoundKey_addRoundKey]

theorem invCipher_cipher (b : Block) : invCipher rk (cipher rk b) = b := by
  have rounds (b : Block) :
      [9, 8, 7, 6, 5, 4, 3, 2, 1].foldl (invCipherRound rk) ([1, 2, 3, 4, 5, 6, 7, 8, 9].foldl (cipherRound rk) b) = b :=
    foldl_reverse_foldl_cancel (invCipherRound_cipherRound rk) [1, 2, 3, 4, 5, 6, 7, 8, 9] b
  simp only [invCipher, cipher]
  rw [addRoundKey_addRoundKey, invShiftRows_shiftRows, invSubBytes_subBytes, rounds, addRoundKey_addRoundKey]

theorem cipher_invCipher (b : Block) : cipher rk (invCipher rk b) = b := by
  have rounds (b : Block) :
      [1, 2, 3, 4, 5, 6, 7, 8, 9].foldl (cipherRound rk) ([9, 8, 7, 6, 5, 4, 3, 2, 1].foldl (invCipherRound rk) b) = b :=
    foldl_reverse_foldl_cancel (cipherRound_invCipherRound rk) [9, 8, 7, 6, 5, 4, 3, 2, 1] b
  simp only [invCipher, cipher]
  rw [addRoundKey_addRoundKey, rounds, subBytes_invSubBytes, shiftRows_invShiftRows, addRoundKey_addRoundKey]

end

/-- The second ECB command reads the schedule the first one read, and the block the first one wrote. -/
theorem afterEcb_afterEcb_data {f g : Schedule → Block → Block} (h : ∀ rk b, g rk (f rk b) = b) (s : State) :
    (afterEcb g (afterEcb f s)).data = s.data :=
  calc ofBlock (g s.rk (blk (ofBlock (f s.rk (blk s.data)))))
      _ = ofBlock (blk s.data) := by rw [blk_ofBlock, h]
      _ = s.data := ofBlock_blk s.data

/-- Settles O25: each round is undone by the inverse round of the same number, and the inverse rounds come in the reverse order. -/
theorem ecbRoundTrip : Obligations.EcbRoundTrip := by
  unfold Obligations.EcbRoundTrip
  refine ⟨fun rk b => ⟨invCipher_cipher rk b, cipher_invCipher rk b⟩, fun s hk => ⟨?encThenDec, ?decThenEnc⟩⟩
  case encThenDec =>
    exact ⟨_, _, exec_encEcb_of_keyv hk, exec_decEcb_of_keyv (s := afterEcb cipher s) hk,
      afterEcb_afterEcb_data invCipher_cipher s⟩
  case decThenEnc =>
    exact ⟨_, _, exec_decEcb_of_keyv hk, exec_encEcb_of_keyv (s := afterEcb invCipher s) hk,
      afterEcb_afterEcb_data cipher_invCipher s⟩

end Sys2Proof.Machine

namespace Sys2Proof.Machine

open Sys2Proof.Reference

/-! ## INIT and the CBC commands by their ECB commands (R283 to R285) -/

theorem exec_init (s : State) : exec .init s = .next { succeeded s with chain := s.iv, blkcnt := 0, outlen := 0 } := by
  rw [exec, execInit, succeed_eq, ofBlock_blk]
  rfl

/-- Settles O29: `blk` and `ofBlock` cancel in the copy of IV to CHAIN. -/
theorem initStartsMessage : Obligations.InitStartsMessage := by
  unfold Obligations.InitStartsMessage
  exact exec_init

/-- R284's XOR by bytes is the statements' XOR by registers. -/
theorem ofBlock_xorBlock (a b : Block) : ofBlock (xorBlock a b) = xorGroup (ofBlock a) (ofBlock b) := by
  apply Vector.ext
  intro n hn
  simp only [ofBlock_xorBlock_getElem, xorGroup, Vector.getElem_ofFn, Fin.getElem_fin]

theorem blk_xorGroup (g h : Group) : blk (xorGroup g h) = xorBlock (blk g) (blk h) := by
  rw [← blk_ofBlock (xorBlock (blk g) (blk h)), ofBlock_xorBlock, ofBlock_blk, ofBlock_blk]

/-- Settles O27: ENC.ECB ciphers the XOR of the registers, whose bytes are the XOR that ENC.CBC ciphers. -/
theorem encCbcChainsCiphertext : Obligations.EncCbcChainsCiphertext := by
  unfold Obligations.EncCbcChainsCiphertext
  intro s hk
  refine ⟨_, _, exec_encCbc_of_keyv hk, exec_encEcb_of_keyv (s := { s with data := xorGroup s.data s.chain }) hk, ?_⟩
  simp only [afterEcb, blk_xorGroup]

/-- Settles O28: both commands decipher the block in DATA, and DEC.CBC XORs CHAIN by bytes. -/
theorem decCbcKeepsCiphertext : Obligations.DecCbcKeepsCiphertext := by
  unfold Obligations.DecCbcKeepsCiphertext
  intro s hk
  refine ⟨_, _, exec_decCbc_of_keyv hk, exec_decEcb_of_keyv hk, ?_⟩
  simp only [afterEcb, ofBlock_xorBlock, ofBlock_blk]

/-! ## PAD (R281, R286) -/

theorem padBlock_getElem_of_lt {n : Nat} {i : Fin 16} (h : i.val < n) (b : Block) : (padBlock b n)[i] = b[i] := by
  simp [padBlock, h]

theorem padBlock_getElem_of_le {n : Nat} {i : Fin 16} (h : n ≤ i.val) (b : Block) :
    (padBlock b n)[i].toNat = 16 - n := by
  have hfits : 16 - n < 256 := by omega
  simpa [padBlock, Nat.not_lt.mpr h] using hfits

theorem exec_pad_of_le {n : BitVec 5} (hn : n.toNat ≤ 15) (s : State) :
    exec (.pad n) s = .next { succeeded s with data := ofBlock (padBlock (blk s.data) n.toNat) } :=
  (if_pos hn).trans (transformData_eq _ s)

theorem exec_pad_of_out_of_range {n : BitVec 5} (hn : ¬ n.toNat ≤ 15) (s : State) :
    exec (.pad n) s = .next (failed .invalidBlockLength s) :=
  (if_neg hn).trans (raise_eq _ s)

/-- Settles O30: a legal PAD stores `padBlock`, which keeps the bytes below n and sets the others. -/
theorem padFillsWithCount : Obligations.PadFillsWithCount := by
  unfold Obligations.PadFillsWithCount
  intro n s
  refine ⟨fun hn => ⟨_, exec_pad_of_le hn s, rfl, fun i => ?bytes⟩, fun hn => exec_pad_of_out_of_range (by omega) s⟩
  case bytes =>
    rw [blk_ofBlock]
    exact ⟨fun hi => padBlock_getElem_of_lt hi _, fun hi => padBlock_getElem_of_le hi _⟩

/-! ## UNPAD (R282, R287) -/

/-- The final byte of a group is bits 7:0 of its last register (R12). -/
theorem blk_getElem_last (g : Group) : (blk g)[15].toNat = g[3].toNat % 256 := by
  rw [blk_getElem]
  simp [wordByte]

/-- UNPAD's condition on the final byte `p` of the block, `blocks` of which make the message (R282). -/
def ValidPadding (p blocks : Nat) : Prop := 1 ≤ p ∧ p ≤ 16 ∧ p ≤ 16 * blocks

section
variable {s : State} {p : Nat} (hp : (blk s.data)[15].toNat = p)
include hp

theorem exec_unpad_of_valid (h : ValidPadding p s.blkcnt.toNat) :
    exec .unpad s = .next { succeeded s with outlen := BitVec.ofNat 5 (16 - p) } := by
  subst hp
  have hcheck : unpadCheck (blk s.data) (16 * s.blkcnt.toNat) = some (16 - (blk s.data)[15].toNat) := if_pos h
  rw [exec, execUnpad, hcheck]
  exact succeed_eq _

theorem exec_unpad_of_not_valid (h : ¬ ValidPadding p s.blkcnt.toNat) :
    exec .unpad s = .next (failed .invalidPadding s) := by
  subst hp
  have hcheck : unpadCheck (blk s.data) (16 * s.blkcnt.toNat) = none := if_neg h
  rw [exec, execUnpad, hcheck]
  exact raise_eq _ s

end

/-- The number of bytes to keep fits OUTLEN. -/
theorem outlen_toNat_of_valid {p blocks : Nat} (h : ValidPadding p blocks) : (BitVec.ofNat 5 (16 - p)).toNat = 16 - p := by
  obtain ⟨hpos, -, -⟩ := h
  exact Nat.mod_eq_of_lt (by omega)

/-- Settles O31: p is the final byte of the block, and the two clauses are `ValidPadding` and its negation. -/
theorem unpadChecksFinalByte : Obligations.UnpadChecksFinalByte := by
  unfold Obligations.UnpadChecksFinalByte
  intro s p hp
  have hlast : (blk s.data)[15].toNat = p := (blk_getElem_last s.data).trans hp.symm
  refine ⟨fun hvalid => ⟨_, exec_unpad_of_valid hlast hvalid, rfl, outlen_toNat_of_valid hvalid⟩, fun hbad => ?_⟩
  refine exec_unpad_of_not_valid hlast ?_
  rintro ⟨hpos, hle, htotal⟩
  omega

/-! ## A whole message (R288, R289) -/

/-- The host's loop over one block more. -/
theorem cipherBlocks_cons_eq_some_iff {i : Instr} {g : Group} {gs cs : List Group} {s u : State} :
    cipherBlocks i (g :: gs) s = some (cs, u) ↔
      ∃ t ds, exec i { s with data := g } = .next t ∧ cipherBlocks i gs t = some (ds, u) ∧ t.data :: ds = cs := by
  rw [cipherBlocks]
  cases exec i { s with data := g } with
  | next t =>
    simp only [Option.map_eq_some_iff, Prod.exists, Prod.mk.injEq, Host.Outcome.next.injEq]
    constructor
    · rintro ⟨ds, _, hrest, rfl, rfl⟩
      exact ⟨t, ds, rfl, hrest, rfl⟩
    · rintro ⟨_, ds, rfl, hrest, rfl⟩
      exact ⟨ds, u, hrest, rfl, rfl⟩
  | fault f => nomatch f
  | refused r => simp

theorem cipherBlocks_append {i : Instr} {gs hs cs ds : List Group} {s t u : State}
    (hg : cipherBlocks i gs s = some (cs, t)) (hh : cipherBlocks i hs t = some (ds, u)) :
    cipherBlocks i (gs ++ hs) s = some (cs ++ ds, u) := by
  induction gs generalizing s cs with
  | nil =>
    obtain ⟨rfl, rfl⟩ := Prod.mk.inj (Option.some.inj hg)
    exact hh
  | cons g gs ih =>
    obtain ⟨v, es, hexec, hrest, rfl⟩ := cipherBlocks_cons_eq_some_iff.mp hg
    exact cipherBlocks_cons_eq_some_iff.mpr ⟨v, es ++ ds, hexec, ih hrest, rfl⟩

/-- `s` is inside a message: it has the valid schedule `rk`, the message's IV, and `c` in CHAIN. -/
def InMessage (rk : Schedule) (iv c : Group) (s : State) : Prop :=
  s.status.keyv = true ∧ s.rk = rk ∧ s.iv = iv ∧ s.chain = c

/-- The ciphertext of the block `g` after the ciphertext `c` (R284). -/
def cbcBlock (rk : Schedule) (c g : Group) : Group := ofBlock (cipher rk (xorBlock (blk g) (blk c)))

section
variable {rk : Schedule} {iv c : Group} {s : State}

theorem exec_init_inMessage (hk : s.status.keyv = true) : ∃ t, exec .init s = .next t ∧ InMessage s.rk s.iv s.iv t :=
  ⟨_, exec_init s, hk, rfl, rfl, rfl⟩

/-- PAD between two blocks of a message does not leave it. -/
theorem exec_pad_inMessage {n : BitVec 5} (hn : n.toNat ≤ 15) (h : InMessage rk iv c s) :
    ∃ t, exec (.pad n) s = .next t ∧ t.data = ofBlock (padBlock (blk s.data) n.toNat) ∧ InMessage rk iv c t :=
  ⟨_, exec_pad_of_le hn s, rfl, h⟩

theorem exec_encCbc_inMessage (h : InMessage rk iv c s) :
    ∃ t, exec .encCbc s = .next t ∧ t.data = cbcBlock rk c s.data ∧ InMessage rk iv (cbcBlock rk c s.data) t := by
  obtain ⟨hk, rfl, rfl, rfl⟩ := h
  exact ⟨_, exec_encCbc_of_keyv hk, rfl, hk, rfl, rfl, rfl⟩

/-- DEC.CBC takes back the block that ENC.CBC enciphered, counts it, and leaves the same CHAIN. -/
theorem exec_decCbc_inMessage {g : Group} (h : InMessage rk iv c s) (hdata : s.data = cbcBlock rk c g) :
    ∃ t, exec .decCbc s = .next t ∧ t.data = g ∧ 1 ≤ t.blkcnt.toNat ∧ InMessage rk iv (cbcBlock rk c g) t := by
  obtain ⟨hk, rfl, rfl, rfl⟩ := h
  refine ⟨_, exec_decCbc_of_keyv hk, ?data, ?count, hk, rfl, rfl, ?chain⟩
  case data =>
    simp only [hdata, cbcBlock, blk_ofBlock, invCipher_cipher, xorBlock_xorBlock, ofBlock_blk]
  case count =>
    simp only [satInc_toNat]
    omega
  case chain => simp only [hdata, ofBlock_blk]

end

/-- The blocks `ps` have one ciphertext `cs` after `c`: in every message ENC.CBC makes it of them, DEC.CBC makes them of it, and both
leave the same CHAIN. -/
theorem exists_cbc_ciphertext (rk : Schedule) (iv : Group) (ps : List Group) (c : Group) :
    ∃ cs c', cs.length = ps.length ∧
      (∀ s, InMessage rk iv c s → ∃ t, cipherBlocks .encCbc ps s = some (cs, t) ∧ InMessage rk iv c' t) ∧
      (∀ s, InMessage rk iv c s → ∃ t, cipherBlocks .decCbc cs s = some (ps, t) ∧ InMessage rk iv c' t) := by
  induction ps generalizing c with
  | nil => exact ⟨[], c, rfl, fun s h => ⟨s, rfl, h⟩, fun s h => ⟨s, rfl, h⟩⟩
  | cons g ps ih =>
    obtain ⟨cs, c', hlen, enc, dec⟩ := ih (cbcBlock rk c g)
    refine ⟨cbcBlock rk c g :: cs, c', congrArg (· + 1) hlen, fun s h => ?encrypt, fun s h => ?decrypt⟩
    case encrypt =>
      obtain ⟨t, hexec, hdata, ht⟩ := exec_encCbc_inMessage (s := { s with data := g }) h
      obtain ⟨u, hrest, hu⟩ := enc t ht
      exact ⟨u, cipherBlocks_cons_eq_some_iff.mpr ⟨t, cs, hexec, hrest, by rw [hdata]⟩, hu⟩
    case decrypt =>
      obtain ⟨t, hexec, hdata, -, ht⟩ := exec_decCbc_inMessage (s := { s with data := cbcBlock rk c g }) h rfl
      obtain ⟨u, hrest, hu⟩ := dec t ht
      exact ⟨u, cipherBlocks_cons_eq_some_iff.mpr ⟨t, ps, hexec, hrest, by rw [hdata]⟩, hu⟩

/-- After at least one block UNPAD keeps what PAD n kept (R281, R282). -/
theorem exec_unpad_of_padBlock {n : Nat} (hn : n ≤ 15) {b : Block} {s : State} (hdata : blk s.data = padBlock b n)
    (hcount : 1 ≤ s.blkcnt.toNat) :
    ∃ t, exec .unpad s = .next t ∧ t.status.errcode = none ∧ t.outlen.toNat = n := by
  have hlast : (blk s.data)[15].toNat = 16 - n := by
    rw [hdata]
    exact padBlock_getElem_of_le (i := 15) hn b
  have hvalid : ValidPadding (16 - n) s.blkcnt.toNat := ⟨by omega, by omega, by omega⟩
  refine ⟨_, exec_unpad_of_valid hlast hvalid, rfl, (outlen_toNat_of_valid hvalid).trans ?_⟩
  omega

/-- Settles O32: from INIT on encryption and decryption are in the same message, whose last block ends in its padding count. -/
theorem cbcPaddedMessageRoundTrip : Obligations.CbcPaddedMessageRoundTrip := by
  unfold Obligations.CbcPaddedMessageRoundTrip
  intro s ps g n hk hn
  obtain ⟨cs, c, hlen, enc, dec⟩ := exists_cbc_ciphertext s.rk s.iv ps s.iv
  obtain ⟨s0, hinit, h0⟩ := exec_init_inMessage hk
  obtain ⟨s1, hblocks, h1⟩ := enc s0 h0
  obtain ⟨s2, hpad, hdata2, h2⟩ := exec_pad_inMessage (s := { s1 with data := g }) hn h1
  obtain ⟨s3, hlast, hdata3, hk3, hrk3, hiv3, -⟩ := exec_encCbc_inMessage h2
  obtain ⟨u0, hinit', h0'⟩ := exec_init_inMessage hk3
  rw [hrk3, hiv3] at h0'
  obtain ⟨v, hblocks', hv⟩ := dec u0 h0'
  obtain ⟨u1, hlast', hdata1, hcount, -⟩ := exec_decCbc_inMessage (s := { v with data := s3.data }) hv hdata3
  have hq : blk u1.data = padBlock (blk g) n.toNat := by rw [hdata1, hdata2, blk_ofBlock]
  obtain ⟨u2, hunpad, herr, hout⟩ := exec_unpad_of_padBlock hn hq hcount
  have hdec : cipherBlocks .decCbc (cs ++ [s3.data]) u0 = some (ps ++ [u1.data], u1) :=
    cipherBlocks_append hblocks' (cipherBlocks_cons_eq_some_iff.mpr ⟨u1, [], hlast', rfl, rfl⟩)
  refine ⟨s0, s1, s2, s3, cs, hinit, hblocks, hpad, hlast, hlen, u0, u1, u2, ps, u1.data, hinit', hdec, hunpad, herr, rfl,
    hout, fun i hi => ?_⟩
  rw [hq]
  exact padBlock_getElem_of_lt hi _

end Sys2Proof.Machine

namespace Sys2Proof.Machine

open Sys2Proof.Reference

/-! ## A step as one event (R82, R360) -/

/-- The event the next step acts on: the core's turn once the agenda is used up (log 2). -/
def nextEvent (s : State) : Event := s.agenda.head?.getD .core

/-- The events that hold a host transaction, complete or cut short by reset. -/
def Event.hasTransaction : Event → Bool
  | .host _ => true
  | .core => false
  | .assertReset tr => tr.isSome
  | .releaseReset => false

/-- The level of the reset input after an event that finds it at `level`. -/
def Event.resetLevel : Event → Bool → Bool
  | .host _, level => level
  | .core, level => level
  | .assertReset _, _ => true
  | .releaseReset, _ => false

theorem step_eq_act (s : State) : step s = act (nextEvent s) (popped s) := by
  cases ha : s.agenda with
  | nil => rw [step_of_coreNext (.inl ha), nextEvent, ha]; rfl
  | cons e rest => rw [step, advance, popped, nextEvent, ha]; rfl

theorem nextEvent_hasTransaction_iff {s : State} : (nextEvent s).hasTransaction = true ↔
    (∃ tr, s.agenda.head? = some (.host tr)) ∨ (∃ tr, s.agenda.head? = some (.assertReset (some tr))) := by
  unfold nextEvent
  rcases s.agenda with - | ⟨_ | _ | (_ | _) | _, _⟩ <;> simp [Event.hasTransaction]

/-- A state is safe when its next event breaks no rule of the host and the state after the event is safe. -/
theorem safe_iff {s : State} : Safe s ↔ (s.inReset && (nextEvent s).hasTransaction) = false ∧
    legalAgenda ((nextEvent s).resetLevel s.inReset) s.agenda.tail = true := by
  unfold Safe nextEvent
  rcases s.agenda with - | ⟨_ | _ | (_ | _) | _, _⟩ <;> simp [legalAgenda, Event.hasTransaction, Event.resetLevel]

/-! ## What one event answers -/

/-- The core's turn leaves no command pending. -/
theorem coreTurn_next (s : State) : ∃ t, coreTurn s = .next t ∧ t.pending = none ∧
    t.agenda = s.agenda ∧ t.inReset = s.inReset := by
  cases hp : s.pending with
  | none => exact ⟨s, by rw [coreTurn, hp], hp, rfl, rfl⟩
  | some w =>
    obtain ⟨e, u, hu, hwrites⟩ := runCommand_completes w s
    refine ⟨complete e u, by rw [coreTurn, hp]; exact hu, rfl, ?_, ?_⟩ <;> rw [hwrites] <;> rfl

/-- Reset with a transaction in progress is reset from what the transaction left (R361). -/
theorem resetTurn_next {s : State} {tr : Option Transaction} (h : s.inReset = false ∨ tr = none) :
    ∃ u, resetTurn tr s = .next (enterReset u) ∧ u.agenda = s.agenda := by
  cases tr with
  | none => exact ⟨s, rfl, rfl⟩
  | some tr =>
    have hr : s.inReset = false := h.resolve_right nofun
    exact ⟨cutShort tr s, by simp [resetTurn, hr], (cutShort_outside tr s).2.1⟩

theorem act_next {e : Event} {s : State} (h : (s.inReset && e.hasTransaction) = false) :
    ∃ t, act e s = .next t ∧ t.agenda = s.agenda ∧ t.inReset = e.resetLevel s.inReset := by
  cases e with
  | host tr =>
    obtain ⟨hin, hagenda, -⟩ := access_outside tr s
    have hr : s.inReset = false := by simpa [Event.hasTransaction] using h
    exact ⟨transact tr s, by simp [act, hostTurn, hr], hagenda, hin⟩
  | core =>
    obtain ⟨t, ht, -, hagenda, hin⟩ := coreTurn_next s
    exact ⟨t, ht, hagenda, hin⟩
  | assertReset tr =>
    have hlegal : s.inReset = false ∨ tr = none :=
      (Bool.and_eq_false_iff.mp h).imp_right (by simp [Event.hasTransaction])
    obtain ⟨u, hu, hagenda⟩ := resetTurn_next hlegal
    exact ⟨enterReset u, hu, hagenda, rfl⟩
  | releaseReset => exact ⟨leaveReset s, rfl, rfl, rfl⟩

theorem act_refused {e : Event} {s : State} (h : (s.inReset && e.hasTransaction) = true) :
    act e s = .refused .transactionDuringReset := by
  obtain ⟨hr, he⟩ := Bool.and_eq_true_iff.mp h
  cases e with
  | host tr => simp [act, hostTurn, hr]
  | core => cases he
  | assertReset tr =>
    obtain ⟨t, rfl⟩ := Option.isSome_iff_exists.mp he
    simp [act, resetTurn, hr]
  | releaseReset => cases he

/-! ## Safe states step on (R320, R360, R380) -/

theorem step_next_of_safe {s : State} (h : Safe s) : ∃ t, step s = .next t ∧ t.agenda = s.agenda.tail ∧ Safe t := by
  obtain ⟨hlegal, hrest⟩ := safe_iff.mp h
  obtain ⟨t, ht, hagenda, hin⟩ := act_next (s := popped s) hlegal
  rw [popped_agenda] at hagenda
  refine ⟨t, (step_eq_act s).trans ht, hagenda, ?_⟩
  rw [Safe, hagenda, hin]
  exact hrest

theorem step_refused_iff {s : State} {r : Refusal} : step s = .refused r ↔
    r = .transactionDuringReset ∧ s.inReset = true ∧ (nextEvent s).hasTransaction = true := by
  rw [step_eq_act, ← Bool.and_eq_true_iff]
  cases h : s.inReset && (nextEvent s).hasTransaction with
  | true => rw [act_refused (s := popped s) h]; simp [eq_comm]
  | false =>
    obtain ⟨t, ht, -, -⟩ := act_next (s := popped s) h
    rw [ht]; simp

/-- Settles O47: a legal event is answered and leaves the rest of the agenda legal; only a transaction during reset is refused. -/
theorem safeStatesStepOn : Obligations.SafeStatesStepOn := by
  unfold Obligations.SafeStatesStepOn
  refine ⟨fun s h => ?_, fun s => ⟨step_never_faults s, fun r => ?_⟩⟩
  · obtain ⟨t, ht, -, hsafe⟩ := step_next_of_safe h
    exact ⟨t, ht, hsafe⟩
  · rw [step_refused_iff, nextEvent_hasTransaction_iff]

/-- A safe run takes every event of its agenda, and then the core's turn ends whatever command is pending (log 2). -/
theorem run_agenda_then_core {s : State} (h : Safe s) :
    ∃ t, Sys2Proof.core.run (s.agenda.length + 1) s = .next t ∧ t.pending = none := by
  induction ha : s.agenda generalizing s with
  | nil =>
    obtain ⟨t, ht, hp, -, -⟩ := coreTurn_next (popped s)
    exact ⟨t, run_succ_of_step ((step_of_coreNext (.inl ha)).trans ht) 0, hp⟩
  | cons e rest ih =>
    obtain ⟨u, hu, hagenda, hsafe⟩ := step_next_of_safe h
    obtain ⟨t, ht, hp⟩ := ih hsafe (by rw [hagenda, ha]; rfl)
    exact ⟨t, (run_succ_of_step hu _).trans ht, hp⟩

/-- Settles O46: the last step of the bound is the core's turn on a used-up agenda. -/
theorem pendingCommandEnds : Obligations.PendingCommandEnds := by
  unfold Obligations.PendingCommandEnds
  exact fun s h _ => ⟨_, le_rfl, run_agenda_then_core h⟩

/-! ## Reset (R39, R360, R361) -/

/-- At reset every register reads as in the reset state: KEYV = 0 hides RK, the one register whose contents are free. -/
theorem readReg_atReset {s : State} (h : AtReset s) (r : Reg) : readReg r s = readReg r State.reset := by
  unfold AtReset at h
  rw [h]
  cases r <;> rfl

theorem access_read_atReset {s : State} (h : AtReset s) {o : Nat} (ho : o < 4096) (ha : o % 4 = 0) :
    (access (.read (at' o) 4) s).1 = .readOk (if o = 0x01C then 0x41455307 else 0) := by
  have hidle : s.status.busy = false := by
    unfold AtReset at h
    rw [h]; rfl
  rw [access_read_defined ho ha s (.inl hidle), readReg_atReset h, readReg_reset]
  simp only [regAt_eq_id_iff ho ha]

/-- Settles O48: reset is entered from what the transaction left, and release keeps the reset values. -/
theorem resetOverwritesEverything : Obligations.ResetOverwritesEverything := by
  unfold Obligations.ResetOverwritesEverything
  intro s tr rest ha hlegal
  obtain ⟨v, hv, hagenda⟩ := resetTurn_next (s := popped s) hlegal
  have henter : step s = .next (enterReset v) := (step_of_assertReset (by rw [ha]; rfl)).trans hv
  have hnext : (enterReset v).agenda = .releaseReset :: rest := by
    rw [enterReset_agenda, hagenda, popped_agenda, ha]; rfl
  have hleave : step (enterReset v) = .next (leaveReset (popped (enterReset v))) :=
    step_of_releaseReset (by rw [hnext]; rfl)
  have hreset : AtReset (leaveReset (popped (enterReset v))) :=
    atReset_leaveReset _ (atReset_popped (atReset_enterReset v))
  refine ⟨_, _, henter, atReset_enterReset v, rfl, rfl, rfl, fun tr' => ?refused, hleave, rfl, hreset, ?agenda,
    fun o => access_read_atReset hreset⟩
  case refused => exact step_refused_iff.mpr ⟨rfl, rfl, rfl⟩
  case agenda => rw [leaveReset_agenda, popped_agenda, hnext]; rfl

end Sys2Proof.Machine
